-- ==== Sys2Proof/Word.lean ====
section
/-! DEFINITION. The bit-vector types of the decoder block: bytes, 32-bit words, register indices. -/

namespace Sys2Proof

/-- One byte `b[i]` of the environment's input stream (20_memory.md R51). -/
abbrev Byte := BitVec 8

/-- The 32-bit instruction word (R7 "ILEN"), also the width of every displayed immediate and of the
environment's address (R7, R53). Bit 0 is the least significant (R9). -/
abbrev Word := BitVec 32

/-- A register index, a 5-bit field (R7, R30): every value 0 to 31 is legal in every register field. -/
abbrev Reg := BitVec 5

end Sys2Proof
end

