-- ==== Sys2Proof/Config.lean ====
section
/-! DEFINITION. The named parameters of 00_scope.md R8 and the free values of 93_implementation_defined.md. -/

namespace Sys2Proof

/-- `AMOOR_FUNCT5` (R8, R100, 90_conflicts.md C5, I1): the funct5 that selects `amoor.w`. "may take only the values
0x08 and 0x0A", so the type has exactly these two; any other number is refused by `Machine.launch`. -/
inductive AmoorFunct5 where
  /-- `0x08`, the default. -/
  | standard
  /-- `0x0A`, the literal of the spec's source. -/
  | literal
deriving DecidableEq, Repr

/-- The launch parameters of R8 that are no input port: `AMOOR_FUNCT5` and `UNKNOWN_TOKEN` of the block,
`BASE_ADDRESS` and suppress-raw-bytes of the environment. (`abi_i` and `pseudo_i` are ports: `Machine.Inputs`.) -/
structure Params where
  amoorFunct5  : AmoorFunct5
  /-- the one fixed placeholder text of every unrecognised word (R115, I2) -/
  unknownToken : String
  /-- the starting address of the scan, any 32-bit value (R53, R58, I4) -/
  baseAddress  : Word
  /-- omit address and raw word from the line (R55) -/
  suppressRaw  : Bool
deriving DecidableEq, Repr

/-- The defaults of R8. -/
def Params.default : Params where
  amoorFunct5  := .standard
  unknownToken := "???"
  baseAddress  := 0
  suppressRaw  := false

/-- `LINE_FORMAT` (R8, R55, D19, I3), OPEN: the characters of a listing line, "a function from `(addr, word, text)` to a
string". Every function that gives characters takes one as an argument and has no default (log entry 5). -/
abbrev LineFormat := Word → Word → String → String

/-- I11: how many of the lines of the words before an input-source error have really been emitted. A free value, applied
to the counter `State.free` (log entry 6). -/
opaque Config.freePrefix : Nat → Nat

/-- R57: the status the process ends with after an input-source error is "nonzero" and not said further: it is
`freeExitStatus c + 1`, a free value applied to the counter `State.free` (log entry 6). -/
opaque Config.freeExitStatus : Nat → Nat

end Sys2Proof
end

