-- ==== Sys2Proof/Syntax.lean ====
section
/-! DEFINITION. Syntax: the FieldSet, the 58 instructions of spec/opcode_table.json, encoding kinds and rendering forms. -/

namespace Sys2Proof

/-- FieldSet (R15, R24): "the seven fixed bit-fields extracted once per word". -/
structure FieldSet where
  opcode : BitVec 7
  rd     : Reg
  funct3 : BitVec 3
  rs1    : Reg
  rs2    : Reg
  funct7 : BitVec 7
  funct5 : BitVec 5
deriving DecidableEq, Repr

/-- A recognised instruction word, with every bit its row leaves open.
`imm` is the assembled, extended 32-bit immediate of R80 to R88 (the value of `imm_o`); which patterns an encoding can hold
is `WellFormed`'s business. Bits that no rule keys or renders (R105) are operands too, so that a word is its instruction
and nothing more (log entry 10). -/
inductive Instr where
  -- 40_rtype.md, R130 to R140: register-register (opcode 0110011)
  | add (rd rs1 rs2 : Reg)
  | sub (rd rs1 rs2 : Reg)
  | sll (rd rs1 rs2 : Reg)
  | slt (rd rs1 rs2 : Reg)
  | sltu (rd rs1 rs2 : Reg)
  | xor (rd rs1 rs2 : Reg)
  | srl (rd rs1 rs2 : Reg)
  | sra (rd rs1 rs2 : Reg)
  | or (rd rs1 rs2 : Reg)
  | and (rd rs1 rs2 : Reg)
  -- 41_m_extension.md, R150 to R158: multiply and divide
  | mul (rd rs1 rs2 : Reg)
  | mulh (rd rs1 rs2 : Reg)
  | mulhsu (rd rs1 rs2 : Reg)
  | mulhu (rd rs1 rs2 : Reg)
  | div (rd rs1 rs2 : Reg)
  | divu (rd rs1 rs2 : Reg)
  | rem (rd rs1 rs2 : Reg)
  | remu (rd rs1 rs2 : Reg)
  -- 42_itype_arith.md, R165 to R174: register-immediate; `imm` of the shifts is the shift amount
  | addi (rd rs1 : Reg) (imm : Word)
  | slti (rd rs1 : Reg) (imm : Word)
  | sltiu (rd rs1 : Reg) (imm : Word)
  | xori (rd rs1 : Reg) (imm : Word)
  | ori (rd rs1 : Reg) (imm : Word)
  | andi (rd rs1 : Reg) (imm : Word)
  | slli (rd rs1 : Reg) (imm : Word)
  | srli (rd rs1 : Reg) (imm : Word)
  | srai (rd rs1 : Reg) (imm : Word)
  -- 43_load.md, R185 to R190: loads
  | lb (rd rs1 : Reg) (imm : Word)
  | lh (rd rs1 : Reg) (imm : Word)
  | lw (rd rs1 : Reg) (imm : Word)
  | lbu (rd rs1 : Reg) (imm : Word)
  | lhu (rd rs1 : Reg) (imm : Word)
  -- 44_store.md, R195 to R198: stores (data register first, as rendered)
  | sb (rs2 rs1 : Reg) (imm : Word)
  | sh (rs2 rs1 : Reg) (imm : Word)
  | sw (rs2 rs1 : Reg) (imm : Word)
  -- 45_branch.md, R205 to R211: branches
  | beq (rs1 rs2 : Reg) (imm : Word)
  | bne (rs1 rs2 : Reg) (imm : Word)
  | blt (rs1 rs2 : Reg) (imm : Word)
  | bge (rs1 rs2 : Reg) (imm : Word)
  | bltu (rs1 rs2 : Reg) (imm : Word)
  | bgeu (rs1 rs2 : Reg) (imm : Word)
  -- 46_jump.md, R220 to R222: jumps
  | jal (rd : Reg) (imm : Word)
  | jalr (rd rs1 : Reg) (imm : Word)
  -- 47_upper.md, R230 to R232: upper immediates; `imm` is the placed pattern
  | lui (rd : Reg) (imm : Word)
  | auipc (rd : Reg) (imm : Word)
  -- 48_system.md, R240 to R242: `rd` and `rs1` are unkeyed and never rendered (D14)
  | ecall (rd rs1 : Reg)
  | ebreak (rd rs1 : Reg)
  -- 49_atomic.md, R250 to R261: `order` is insn[26:25] (R35), and `rs2` of lr.w is not rendered (D13)
  | lrW (rd rs1 rs2 : Reg) (order : BitVec 2)
  | scW (rd rs2 rs1 : Reg) (order : BitVec 2)
  | amoswapW (rd rs2 rs1 : Reg) (order : BitVec 2)
  | amoaddW (rd rs2 rs1 : Reg) (order : BitVec 2)
  | amoxorW (rd rs2 rs1 : Reg) (order : BitVec 2)
  | amoandW (rd rs2 rs1 : Reg) (order : BitVec 2)
  | amoorW (rd rs2 rs1 : Reg) (order : BitVec 2)
  | amominW (rd rs2 rs1 : Reg) (order : BitVec 2)
  | amomaxW (rd rs2 rs1 : Reg) (order : BitVec 2)
  | amominuW (rd rs2 rs1 : Reg) (order : BitVec 2)
  | amomaxuW (rd rs2 rs1 : Reg) (order : BitVec 2)
deriving DecidableEq, Repr

/-- Encoding kinds (R27, R71): the six formats, and none for an unrecognised word. -/
inductive Fmt where
  | none | R | I | S | B | U | J
deriving DecidableEq, Repr

/-- Rendering forms (R28). -/
inductive Form where
  | none | rrr | rri | load | store | branch | jal | jalr | ui | noops | lr | amo
deriving DecidableEq, Repr

/-- The operand layout of a recognised instruction (R28, R111): its form together with the registers the form names.
The immediate is the record's `imm_o`. -/
inductive Operands where
  | rrr (rd rs1 rs2 : Reg)
  | rri (rd rs1 : Reg)
  | load (rd rs1 : Reg)
  | store (rs2 rs1 : Reg)
  | branch (rs1 rs2 : Reg)
  | jal (rd : Reg)
  | jalr (rd rs1 : Reg)
  | ui (rd : Reg)
  | noops
  | lr (rd rs1 : Reg)
  | amo (rd rs2 rs1 : Reg)
deriving DecidableEq, Repr

end Sys2Proof
end

