-- ==== Sys2Proof/WellFormed.lean ====
section
/-! DEFINITION. Well-formed instructions: the immediate is one the instruction's encoding can hold (R81 to R86). -/

namespace Sys2Proof

/-- R81, R82: a 12-bit two's-complement value, −2048 to 2047. -/
def fitsI (imm : Word) : Bool := -2048 ≤ imm.toInt && imm.toInt ≤ 2047

/-- R86: a shift amount, 0 to 31. -/
def fitsShift (imm : Word) : Bool := imm.toNat < 32

/-- R83: even, −4096 to 4094. -/
def fitsB (imm : Word) : Bool := !imm.getLsbD 0 && (-4096 ≤ imm.toInt && imm.toInt ≤ 4094)

/-- R84: the low 12 bits are zero. -/
def fitsU (imm : Word) : Bool := imm.extractLsb' 0 12 == 0

/-- R85: even, −1048576 to 1048574. -/
def fitsJ (imm : Word) : Bool := !imm.getLsbD 0 && (-1048576 ≤ imm.toInt && imm.toInt ≤ 1048574)

/-- An instruction some word encodes: its immediate is in the range of its immediate kind (R88). -/
def Instr.wf : Instr → Bool
  | .add _ _ _ => true
  | .sub _ _ _ => true
  | .sll _ _ _ => true
  | .slt _ _ _ => true
  | .sltu _ _ _ => true
  | .xor _ _ _ => true
  | .srl _ _ _ => true
  | .sra _ _ _ => true
  | .or _ _ _ => true
  | .and _ _ _ => true
  | .mul _ _ _ => true
  | .mulh _ _ _ => true
  | .mulhsu _ _ _ => true
  | .mulhu _ _ _ => true
  | .div _ _ _ => true
  | .divu _ _ _ => true
  | .rem _ _ _ => true
  | .remu _ _ _ => true
  | .addi _ _ imm => fitsI imm
  | .slti _ _ imm => fitsI imm
  | .sltiu _ _ imm => fitsI imm
  | .xori _ _ imm => fitsI imm
  | .ori _ _ imm => fitsI imm
  | .andi _ _ imm => fitsI imm
  | .slli _ _ imm => fitsShift imm
  | .srli _ _ imm => fitsShift imm
  | .srai _ _ imm => fitsShift imm
  | .lb _ _ imm => fitsI imm
  | .lh _ _ imm => fitsI imm
  | .lw _ _ imm => fitsI imm
  | .lbu _ _ imm => fitsI imm
  | .lhu _ _ imm => fitsI imm
  | .sb _ _ imm => fitsI imm
  | .sh _ _ imm => fitsI imm
  | .sw _ _ imm => fitsI imm
  | .beq _ _ imm => fitsB imm
  | .bne _ _ imm => fitsB imm
  | .blt _ _ imm => fitsB imm
  | .bge _ _ imm => fitsB imm
  | .bltu _ _ imm => fitsB imm
  | .bgeu _ _ imm => fitsB imm
  | .jal _ imm => fitsJ imm
  | .jalr _ _ imm => fitsI imm
  | .lui _ imm => fitsU imm
  | .auipc _ imm => fitsU imm
  | .ecall _ _ => true
  | .ebreak _ _ => true
  | .lrW _ _ _ _ => true
  | .scW _ _ _ _ => true
  | .amoswapW _ _ _ _ => true
  | .amoaddW _ _ _ _ => true
  | .amoxorW _ _ _ _ => true
  | .amoandW _ _ _ _ => true
  | .amoorW _ _ _ _ => true
  | .amominW _ _ _ _ => true
  | .amomaxW _ _ _ _ => true
  | .amominuW _ _ _ _ => true
  | .amomaxuW _ _ _ _ => true

end Sys2Proof
end

