-- ==== Sys2Proof/Decode.lean ====
section
/-! DEFINITION. From bits to instructions and back: field extractor (R24), immediate builder (R80 to R88), dispatcher
(R90 to R102), the opcode table's rows, the byte decoder (R52, R54) and the encoder. -/

namespace Sys2Proof

/-- The funct5 value of `AMOOR_FUNCT5` (R8, R100). -/
def AmoorFunct5.code : AmoorFunct5 → BitVec 5
  | .standard => 0x08
  | .literal  => 0x0A

/-- R8, R100: only 0x08 and 0x0A are values of `AMOOR_FUNCT5`. -/
def AmoorFunct5.ofNat? (n : Nat) : Option AmoorFunct5 :=
  if n = 0x08 then some .standard else if n = 0x0A then some .literal else none

/-! ### The field extractor -/

/-- R24: the seven fixed fields, for every 32-bit value. -/
def extractFields (w : Word) : FieldSet where
  opcode := w.extractLsb' 0 7
  rd     := w.extractLsb' 7 5
  funct3 := w.extractLsb' 12 3
  rs1    := w.extractLsb' 15 5
  rs2    := w.extractLsb' 20 5
  funct7 := w.extractLsb' 25 7
  funct5 := w.extractLsb' 27 5

/-- R35: the ordering bits `insn[26:25]`. -/
def orderBits (w : Word) : BitVec 2 := w.extractLsb' 25 2

/-! ### The immediate builder -/

/-- R81: `sext_32(insn[31:20])`. -/
def immI (w : Word) : Word := (w.extractLsb' 20 12).signExtend 32

/-- R82: `sext_32({insn[31:25], insn[11:7]})`, a concatenation and never a sum. -/
def immS (w : Word) : Word := (w.extractLsb' 25 7 ++ w.extractLsb' 7 5).signExtend 32

/-- R83: `sext_32({insn[31], insn[7], insn[30:25], insn[11:8], 1'b0})`. -/
def immB (w : Word) : Word :=
  (w.extractLsb' 31 1 ++ w.extractLsb' 7 1 ++ w.extractLsb' 25 6 ++ w.extractLsb' 8 4 ++ 0#1).signExtend 32

/-- R84: `{insn[31:12], 12'b0}`. -/
def immU (w : Word) : Word := w.extractLsb' 12 20 ++ 0#12

/-- R85: `sext_32({insn[31], insn[19:12], insn[20], insn[30:21], 1'b0})`. -/
def immJ (w : Word) : Word :=
  (w.extractLsb' 31 1 ++ w.extractLsb' 12 8 ++ w.extractLsb' 20 1 ++ w.extractLsb' 21 10 ++ 0#1).signExtend 32

/-- R86: `zext_32(insn[24:20])`, the shift amount. -/
def immSH (w : Word) : Word := (w.extractLsb' 20 5).setWidth 32

/-! ### The dispatcher -/

/-- R92: opcode 0110011, keyed by funct7 and funct3. -/
def decodeOp (f : FieldSet) : Option Instr :=
  match f.funct7, f.funct3 with
  | 0x00#7, 0#3 => some (.add f.rd f.rs1 f.rs2)
  | 0x00#7, 1#3 => some (.sll f.rd f.rs1 f.rs2)
  | 0x00#7, 2#3 => some (.slt f.rd f.rs1 f.rs2)
  | 0x00#7, 3#3 => some (.sltu f.rd f.rs1 f.rs2)
  | 0x00#7, 4#3 => some (.xor f.rd f.rs1 f.rs2)
  | 0x00#7, 5#3 => some (.srl f.rd f.rs1 f.rs2)
  | 0x00#7, 6#3 => some (.or f.rd f.rs1 f.rs2)
  | 0x00#7, 7#3 => some (.and f.rd f.rs1 f.rs2)
  | 0x20#7, 0#3 => some (.sub f.rd f.rs1 f.rs2)
  | 0x20#7, 5#3 => some (.sra f.rd f.rs1 f.rs2)
  | 0x01#7, 0#3 => some (.mul f.rd f.rs1 f.rs2)
  | 0x01#7, 1#3 => some (.mulh f.rd f.rs1 f.rs2)
  | 0x01#7, 2#3 => some (.mulhsu f.rd f.rs1 f.rs2)
  | 0x01#7, 3#3 => some (.mulhu f.rd f.rs1 f.rs2)
  | 0x01#7, 4#3 => some (.div f.rd f.rs1 f.rs2)
  | 0x01#7, 5#3 => some (.divu f.rd f.rs1 f.rs2)
  | 0x01#7, 6#3 => some (.rem f.rd f.rs1 f.rs2)
  | 0x01#7, 7#3 => some (.remu f.rd f.rs1 f.rs2)
  | _, _ => none

/-- R93: opcode 0010011, keyed by funct3, and by `insn[31:25]` for the shifts. -/
def decodeOpImm (w : Word) (f : FieldSet) : Option Instr :=
  match f.funct3 with
  | 0#3 => some (.addi f.rd f.rs1 (immI w))
  | 1#3 => if f.funct7 = 0x00 then some (.slli f.rd f.rs1 (immSH w)) else none
  | 2#3 => some (.slti f.rd f.rs1 (immI w))
  | 3#3 => some (.sltiu f.rd f.rs1 (immI w))
  | 4#3 => some (.xori f.rd f.rs1 (immI w))
  | 5#3 =>
    if f.funct7 = 0x00 then some (.srli f.rd f.rs1 (immSH w))
    else if f.funct7 = 0x20 then some (.srai f.rd f.rs1 (immSH w))
    else none
  | 6#3 => some (.ori f.rd f.rs1 (immI w))
  | _   => some (.andi f.rd f.rs1 (immI w))

/-- R94: opcode 0000011. -/
def decodeLoad (w : Word) (f : FieldSet) : Option Instr :=
  match f.funct3 with
  | 0#3 => some (.lb f.rd f.rs1 (immI w))
  | 1#3 => some (.lh f.rd f.rs1 (immI w))
  | 2#3 => some (.lw f.rd f.rs1 (immI w))
  | 4#3 => some (.lbu f.rd f.rs1 (immI w))
  | 5#3 => some (.lhu f.rd f.rs1 (immI w))
  | _   => none

/-- R95: opcode 0100011. -/
def decodeStore (w : Word) (f : FieldSet) : Option Instr :=
  match f.funct3 with
  | 0#3 => some (.sb f.rs2 f.rs1 (immS w))
  | 1#3 => some (.sh f.rs2 f.rs1 (immS w))
  | 2#3 => some (.sw f.rs2 f.rs1 (immS w))
  | _   => none

/-- R96: opcode 1100011. -/
def decodeBranch (w : Word) (f : FieldSet) : Option Instr :=
  match f.funct3 with
  | 0#3 => some (.beq f.rs1 f.rs2 (immB w))
  | 1#3 => some (.bne f.rs1 f.rs2 (immB w))
  | 4#3 => some (.blt f.rs1 f.rs2 (immB w))
  | 5#3 => some (.bge f.rs1 f.rs2 (immB w))
  | 6#3 => some (.bltu f.rs1 f.rs2 (immB w))
  | 7#3 => some (.bgeu f.rs1 f.rs2 (immB w))
  | _   => none

/-- R99: opcode 1110011, keyed by funct3 and `insn[31:20]`; `rd` and `rs1` are not in the key (D14). -/
def decodeSystem (w : Word) (f : FieldSet) : Option Instr :=
  if f.funct3 = 0 then
    match w.extractLsb' 20 12 with
    | 0#12 => some (.ecall f.rd f.rs1)
    | 1#12 => some (.ebreak f.rd f.rs1)
    | _    => none
  else none

/-- R100: opcode 0101111, keyed by funct3 and funct5; `insn[26:25]` is not in the key (D12), nor is the `rs2` of lr.w (D13). -/
def decodeAtomic (a : AmoorFunct5) (w : Word) (f : FieldSet) : Option Instr :=
  if f.funct3 = 2 then
    match f.funct5 with
    | 0x00#5 => some (.amoaddW f.rd f.rs2 f.rs1 (orderBits w))
    | 0x01#5 => some (.amoswapW f.rd f.rs2 f.rs1 (orderBits w))
    | 0x02#5 => some (.lrW f.rd f.rs1 f.rs2 (orderBits w))
    | 0x03#5 => some (.scW f.rd f.rs2 f.rs1 (orderBits w))
    | 0x04#5 => some (.amoxorW f.rd f.rs2 f.rs1 (orderBits w))
    | 0x0C#5 => some (.amoandW f.rd f.rs2 f.rs1 (orderBits w))
    | 0x10#5 => some (.amominW f.rd f.rs2 f.rs1 (orderBits w))
    | 0x14#5 => some (.amomaxW f.rd f.rs2 f.rs1 (orderBits w))
    | 0x18#5 => some (.amominuW f.rd f.rs2 f.rs1 (orderBits w))
    | 0x1C#5 => some (.amomaxuW f.rd f.rs2 f.rs1 (orderBits w))
    | f5     => if f5 = a.code then some (.amoorW f.rd f.rs2 f.rs1 (orderBits w)) else none
  else none

/-- R90, R91: the dispatcher. `none` is the unrecognised verdict, the only one for a word outside the table (R101, R103). -/
def decodeWord (a : AmoorFunct5) (w : Word) : Option Instr :=
  let f := extractFields w
  match f.opcode with
  | 0b0110011#7 => decodeOp f
  | 0b0010011#7 => decodeOpImm w f
  | 0b0000011#7 => decodeLoad w f
  | 0b0100011#7 => decodeStore w f
  | 0b1100011#7 => decodeBranch w f
  | 0b1101111#7 => some (.jal f.rd (immJ w))
  | 0b1100111#7 => if f.funct3 = 0 then some (.jalr f.rd f.rs1 (immI w)) else none
  | 0b0110111#7 => some (.lui f.rd (immU w))
  | 0b0010111#7 => some (.auipc f.rd (immU w))
  | 0b1110011#7 => decodeSystem w f
  | 0b0101111#7 => decodeAtomic a w f
  | _           => none

/-! ### The opcode table's rows -/

/-- One row of opcode_table.json (R90): its `mnem_o` code, and a word is this instruction when `insn AND mask = match`. -/
structure OpcodeRow where
  code  : BitVec 6
  mask  : Word
  value : Word
deriving DecidableEq, Repr

/-- R90. -/
def OpcodeRow.matchesWord (r : OpcodeRow) (w : Word) : Bool := w &&& r.mask == r.value

/-- The `match` of the amoor.w row for each `AMOOR_FUNCT5` (the row's `param`). -/
def AmoorFunct5.rowMatch : AmoorFunct5 → Word
  | .standard => 0x4000202F
  | .literal  => 0x5000202F

/-- The rows of 40_rtype.md. -/
def rtypeRows : List OpcodeRow :=
  [⟨1, 0xFE00707F, 0x00000033⟩,
   ⟨2, 0xFE00707F, 0x40000033⟩,
   ⟨3, 0xFE00707F, 0x00001033⟩,
   ⟨4, 0xFE00707F, 0x00002033⟩,
   ⟨5, 0xFE00707F, 0x00003033⟩,
   ⟨6, 0xFE00707F, 0x00004033⟩,
   ⟨7, 0xFE00707F, 0x00005033⟩,
   ⟨8, 0xFE00707F, 0x40005033⟩,
   ⟨9, 0xFE00707F, 0x00006033⟩,
   ⟨10, 0xFE00707F, 0x00007033⟩]

/-- The rows of 41_m_extension.md. -/
def mextRows : List OpcodeRow :=
  [⟨11, 0xFE00707F, 0x02000033⟩,
   ⟨12, 0xFE00707F, 0x02001033⟩,
   ⟨13, 0xFE00707F, 0x02002033⟩,
   ⟨14, 0xFE00707F, 0x02003033⟩,
   ⟨15, 0xFE00707F, 0x02004033⟩,
   ⟨16, 0xFE00707F, 0x02005033⟩,
   ⟨17, 0xFE00707F, 0x02006033⟩,
   ⟨18, 0xFE00707F, 0x02007033⟩]

/-- The rows of 42_itype_arith.md. -/
def itypeRows : List OpcodeRow :=
  [⟨19, 0x0000707F, 0x00000013⟩,
   ⟨20, 0x0000707F, 0x00002013⟩,
   ⟨21, 0x0000707F, 0x00003013⟩,
   ⟨22, 0x0000707F, 0x00004013⟩,
   ⟨23, 0x0000707F, 0x00006013⟩,
   ⟨24, 0x0000707F, 0x00007013⟩,
   ⟨25, 0xFE00707F, 0x00001013⟩,
   ⟨26, 0xFE00707F, 0x00005013⟩,
   ⟨27, 0xFE00707F, 0x40005013⟩]

/-- The rows of 43_load.md. -/
def loadRows : List OpcodeRow :=
  [⟨28, 0x0000707F, 0x00000003⟩,
   ⟨29, 0x0000707F, 0x00001003⟩,
   ⟨30, 0x0000707F, 0x00002003⟩,
   ⟨31, 0x0000707F, 0x00004003⟩,
   ⟨32, 0x0000707F, 0x00005003⟩]

/-- The rows of 44_store.md. -/
def storeRows : List OpcodeRow :=
  [⟨33, 0x0000707F, 0x00000023⟩,
   ⟨34, 0x0000707F, 0x00001023⟩,
   ⟨35, 0x0000707F, 0x00002023⟩]

/-- The rows of 45_branch.md. -/
def branchRows : List OpcodeRow :=
  [⟨36, 0x0000707F, 0x00000063⟩,
   ⟨37, 0x0000707F, 0x00001063⟩,
   ⟨38, 0x0000707F, 0x00004063⟩,
   ⟨39, 0x0000707F, 0x00005063⟩,
   ⟨40, 0x0000707F, 0x00006063⟩,
   ⟨41, 0x0000707F, 0x00007063⟩]

/-- The rows of 46_jump.md. -/
def jumpRows : List OpcodeRow :=
  [⟨42, 0x0000007F, 0x0000006F⟩,
   ⟨43, 0x0000707F, 0x00000067⟩]

/-- The rows of 47_upper.md. -/
def upperRows : List OpcodeRow :=
  [⟨44, 0x0000007F, 0x00000037⟩,
   ⟨45, 0x0000007F, 0x00000017⟩]

/-- The rows of 48_system.md. -/
def systemRows : List OpcodeRow :=
  [⟨46, 0xFFF0707F, 0x00000073⟩,
   ⟨47, 0xFFF0707F, 0x00100073⟩]

/-- The rows of 49_atomic.md. -/
def atomicRows (a : AmoorFunct5) : List OpcodeRow :=
  [⟨48, 0xF800707F, 0x1000202F⟩,
   ⟨49, 0xF800707F, 0x1800202F⟩,
   ⟨50, 0xF800707F, 0x0800202F⟩,
   ⟨51, 0xF800707F, 0x0000202F⟩,
   ⟨52, 0xF800707F, 0x2000202F⟩,
   ⟨53, 0xF800707F, 0x6000202F⟩,
   ⟨54, 0xF800707F, a.rowMatch⟩,
   ⟨55, 0xF800707F, 0x8000202F⟩,
   ⟨56, 0xF800707F, 0xA000202F⟩,
   ⟨57, 0xF800707F, 0xC000202F⟩,
   ⟨58, 0xF800707F, 0xE000202F⟩]

/-- The 58 rows of opcode_table.json (R90), in its order. -/
def opcodeRows (a : AmoorFunct5) : List OpcodeRow :=
  rtypeRows ++ mextRows ++ itypeRows ++ loadRows ++ storeRows ++ branchRows ++ jumpRows ++ upperRows ++ systemRows ++ atomicRows a

/-! ### Bytes -/

/-- R52: a word from four bytes, least significant byte first. -/
def assembleWord (b0 b1 b2 b3 : Byte) : Word := b3 ++ b2 ++ b1 ++ b0

/-- The four bytes of a word in stream order (R52). -/
def wordBytes (w : Word) : List Byte := [w.extractLsb' 0 8, w.extractLsb' 8 8, w.extractLsb' 16 8, w.extractLsb' 24 8]

/-- What the front of a byte stream holds. -/
inductive Decoded where
  /-- a recognised word: its instruction, the word, the bytes after it -/
  | instr (i : Instr) (w : Word) (rest : List Byte)
  /-- a word outside the table: it still takes four bytes (R70) -/
  | unrecognised (w : Word) (rest : List Byte)
  /-- fewer than four bytes: no word (R54) -/
  | noWord
deriving DecidableEq, Repr

/-- Decoding, total on any bytes. -/
def decode (a : AmoorFunct5) : List Byte → Decoded
  | b0 :: b1 :: b2 :: b3 :: rest =>
    match decodeWord a (assembleWord b0 b1 b2 b3) with
    | some i => .instr i (assembleWord b0 b1 b2 b3) rest
    | none   => .unrecognised (assembleWord b0 b1 b2 b3) rest
  | _ => .noWord

/-- The 32-bit word the host's `(nbits, w)` stands for: the low `nbits` bits of `w`, every bit above them zero. -/
def tableWord (nbits w : Nat) : Word := BitVec.ofNat 32 (w % 2 ^ nbits)

/-- The instruction this decoder reads from a word of the opcode table, with the default `AMOOR_FUNCT5` (R8). -/
def decodeTableWord (nbits w : Nat) : Option Instr :=
  match decode .standard (wordBytes (tableWord nbits w)) with
  | .instr i _ _ => some i
  | _            => none

/-! ### The encoder -/

/-- A field placed with its lowest bit at bit `lo` of the word (R9). -/
def place {n : Nat} (x : BitVec n) (lo : Nat) : Word := x.setWidth 32 <<< lo

/-- R72. -/
def encodeR (f7 : BitVec 7) (rs2 rs1 : Reg) (f3 : BitVec 3) (rd : Reg) (op : BitVec 7) : Word :=
  place f7 25 ||| place rs2 20 ||| place rs1 15 ||| place f3 12 ||| place rd 7 ||| place op 0

/-- R78. -/
def encodeA (f5 : BitVec 5) (order : BitVec 2) (rs2 rs1 : Reg) (f3 : BitVec 3) (rd : Reg) (op : BitVec 7) : Word :=
  place f5 27 ||| place order 25 ||| place rs2 20 ||| place rs1 15 ||| place f3 12 ||| place rd 7 ||| place op 0

/-- R73. -/
def encodeI (imm : Word) (rs1 : Reg) (f3 : BitVec 3) (rd : Reg) (op : BitVec 7) : Word :=
  place (imm.extractLsb' 0 12) 20 ||| place rs1 15 ||| place f3 12 ||| place rd 7 ||| place op 0

/-- R73, R86: an immediate shift, its discriminator above the shift amount. -/
def encodeShift (f7 : BitVec 7) (imm : Word) (rs1 : Reg) (f3 : BitVec 3) (rd : Reg) (op : BitVec 7) : Word :=
  place f7 25 ||| place (imm.extractLsb' 0 5) 20 ||| place rs1 15 ||| place f3 12 ||| place rd 7 ||| place op 0

/-- R74. -/
def encodeS (imm : Word) (rs2 rs1 : Reg) (f3 : BitVec 3) (op : BitVec 7) : Word :=
  place (imm.extractLsb' 5 7) 25 ||| place rs2 20 ||| place rs1 15 ||| place f3 12 ||| place (imm.extractLsb' 0 5) 7
    ||| place op 0

/-- R75. -/
def encodeB (imm : Word) (rs2 rs1 : Reg) (f3 : BitVec 3) (op : BitVec 7) : Word :=
  place (imm.extractLsb' 12 1) 31 ||| place (imm.extractLsb' 5 6) 25 ||| place rs2 20 ||| place rs1 15 ||| place f3 12
    ||| place (imm.extractLsb' 1 4) 8 ||| place (imm.extractLsb' 11 1) 7 ||| place op 0

/-- R76. -/
def encodeU (imm : Word) (rd : Reg) (op : BitVec 7) : Word :=
  place (imm.extractLsb' 12 20) 12 ||| place rd 7 ||| place op 0

/-- R77. -/
def encodeJ (imm : Word) (rd : Reg) (op : BitVec 7) : Word :=
  place (imm.extractLsb' 20 1) 31 ||| place (imm.extractLsb' 1 10) 21 ||| place (imm.extractLsb' 11 1) 20
    ||| place (imm.extractLsb' 12 8) 12 ||| place rd 7 ||| place op 0

/-- The word of an instruction, from the encodings of opcode_table.json (an ill-formed immediate loses the bits its encoding
has no place for). -/
def encode (a : AmoorFunct5) : Instr → Word
  | .add rd rs1 rs2 => encodeR 0b0000000 rs2 rs1 0b000 rd 0b0110011
  | .sub rd rs1 rs2 => encodeR 0b0100000 rs2 rs1 0b000 rd 0b0110011
  | .sll rd rs1 rs2 => encodeR 0b0000000 rs2 rs1 0b001 rd 0b0110011
  | .slt rd rs1 rs2 => encodeR 0b0000000 rs2 rs1 0b010 rd 0b0110011
  | .sltu rd rs1 rs2 => encodeR 0b0000000 rs2 rs1 0b011 rd 0b0110011
  | .xor rd rs1 rs2 => encodeR 0b0000000 rs2 rs1 0b100 rd 0b0110011
  | .srl rd rs1 rs2 => encodeR 0b0000000 rs2 rs1 0b101 rd 0b0110011
  | .sra rd rs1 rs2 => encodeR 0b0100000 rs2 rs1 0b101 rd 0b0110011
  | .or rd rs1 rs2 => encodeR 0b0000000 rs2 rs1 0b110 rd 0b0110011
  | .and rd rs1 rs2 => encodeR 0b0000000 rs2 rs1 0b111 rd 0b0110011
  | .mul rd rs1 rs2 => encodeR 0b0000001 rs2 rs1 0b000 rd 0b0110011
  | .mulh rd rs1 rs2 => encodeR 0b0000001 rs2 rs1 0b001 rd 0b0110011
  | .mulhsu rd rs1 rs2 => encodeR 0b0000001 rs2 rs1 0b010 rd 0b0110011
  | .mulhu rd rs1 rs2 => encodeR 0b0000001 rs2 rs1 0b011 rd 0b0110011
  | .div rd rs1 rs2 => encodeR 0b0000001 rs2 rs1 0b100 rd 0b0110011
  | .divu rd rs1 rs2 => encodeR 0b0000001 rs2 rs1 0b101 rd 0b0110011
  | .rem rd rs1 rs2 => encodeR 0b0000001 rs2 rs1 0b110 rd 0b0110011
  | .remu rd rs1 rs2 => encodeR 0b0000001 rs2 rs1 0b111 rd 0b0110011
  | .addi rd rs1 imm => encodeI imm rs1 0b000 rd 0b0010011
  | .slti rd rs1 imm => encodeI imm rs1 0b010 rd 0b0010011
  | .sltiu rd rs1 imm => encodeI imm rs1 0b011 rd 0b0010011
  | .xori rd rs1 imm => encodeI imm rs1 0b100 rd 0b0010011
  | .ori rd rs1 imm => encodeI imm rs1 0b110 rd 0b0010011
  | .andi rd rs1 imm => encodeI imm rs1 0b111 rd 0b0010011
  | .slli rd rs1 imm => encodeShift 0b0000000 imm rs1 0b001 rd 0b0010011
  | .srli rd rs1 imm => encodeShift 0b0000000 imm rs1 0b101 rd 0b0010011
  | .srai rd rs1 imm => encodeShift 0b0100000 imm rs1 0b101 rd 0b0010011
  | .lb rd rs1 imm => encodeI imm rs1 0b000 rd 0b0000011
  | .lh rd rs1 imm => encodeI imm rs1 0b001 rd 0b0000011
  | .lw rd rs1 imm => encodeI imm rs1 0b010 rd 0b0000011
  | .lbu rd rs1 imm => encodeI imm rs1 0b100 rd 0b0000011
  | .lhu rd rs1 imm => encodeI imm rs1 0b101 rd 0b0000011
  | .sb rs2 rs1 imm => encodeS imm rs2 rs1 0b000 0b0100011
  | .sh rs2 rs1 imm => encodeS imm rs2 rs1 0b001 0b0100011
  | .sw rs2 rs1 imm => encodeS imm rs2 rs1 0b010 0b0100011
  | .beq rs1 rs2 imm => encodeB imm rs2 rs1 0b000 0b1100011
  | .bne rs1 rs2 imm => encodeB imm rs2 rs1 0b001 0b1100011
  | .blt rs1 rs2 imm => encodeB imm rs2 rs1 0b100 0b1100011
  | .bge rs1 rs2 imm => encodeB imm rs2 rs1 0b101 0b1100011
  | .bltu rs1 rs2 imm => encodeB imm rs2 rs1 0b110 0b1100011
  | .bgeu rs1 rs2 imm => encodeB imm rs2 rs1 0b111 0b1100011
  | .jal rd imm => encodeJ imm rd 0b1101111
  | .jalr rd rs1 imm => encodeI imm rs1 0b000 rd 0b1100111
  | .lui rd imm => encodeU imm rd 0b0110111
  | .auipc rd imm => encodeU imm rd 0b0010111
  | .ecall rd rs1 => encodeI 0 rs1 0b000 rd 0b1110011
  | .ebreak rd rs1 => encodeI 1 rs1 0b000 rd 0b1110011
  | .lrW rd rs1 rs2 order => encodeA 0b00010 order rs2 rs1 0b010 rd 0b0101111
  | .scW rd rs2 rs1 order => encodeA 0b00011 order rs2 rs1 0b010 rd 0b0101111
  | .amoswapW rd rs2 rs1 order => encodeA 0b00001 order rs2 rs1 0b010 rd 0b0101111
  | .amoaddW rd rs2 rs1 order => encodeA 0b00000 order rs2 rs1 0b010 rd 0b0101111
  | .amoxorW rd rs2 rs1 order => encodeA 0b00100 order rs2 rs1 0b010 rd 0b0101111
  | .amoandW rd rs2 rs1 order => encodeA 0b01100 order rs2 rs1 0b010 rd 0b0101111
  | .amoorW rd rs2 rs1 order => encodeA a.code order rs2 rs1 0b010 rd 0b0101111
  | .amominW rd rs2 rs1 order => encodeA 0b10000 order rs2 rs1 0b010 rd 0b0101111
  | .amomaxW rd rs2 rs1 order => encodeA 0b10100 order rs2 rs1 0b010 rd 0b0101111
  | .amominuW rd rs2 rs1 order => encodeA 0b11000 order rs2 rs1 0b010 rd 0b0101111
  | .amomaxuW rd rs2 rs1 order => encodeA 0b11100 order rs2 rs1 0b010 rd 0b0101111

end Sys2Proof
end

