-- ==== Sys2Proof/Machine/State.lean ====
section
/-! DEFINITION. The machine's state: the block's ports, the launch parameters and the scan environment; its stops; reset.
The block holds no state (10_state.md R20, R23); what a state holds is the values on its ports and the environment. -/

namespace Sys2Proof.Machine

/-- The input ports (R21). -/
structure Inputs where
  /-- `insn_i` -/
  insn   : Word
  /-- `abi_i`: false numeric names, true ABI names -/
  abi    : Bool
  /-- `pseudo_i`: reserved, without effect (R33) -/
  pseudo : Bool
deriving DecidableEq, Repr

/-- The output ports, the decoded-instruction record `Out` (R22, R25). -/
structure Out where
  /-- `opcode_o` to `funct5_o` (R24) -/
  fields : FieldSet
  /-- `valid_o` -/
  valid  : Bool
  /-- `mnem_o` (R26) -/
  mnem   : BitVec 6
  /-- `fmt_o` (R27) -/
  fmt    : BitVec 3
  /-- `form_o` (R28) -/
  form   : BitVec 4
  /-- `imm_o` (R80 to R88) -/
  imm    : Word
  /-- `text_o` (R110 to R116) -/
  text   : String
deriving DecidableEq, Repr

/-- One emitted line (R55): the three values in their order, or the text alone when suppress-raw-bytes is set. -/
inductive Line where
  | listed (address word : Word) (text : String)
  | bare (text : String)
deriving DecidableEq, Repr

/-- The environment's input (R51): the bytes it delivers and what follows the last of them, the end of the input or an
input-source error (R57; a missing file is an error after no byte). -/
structure Source where
  bytes   : List Byte
  failing : Bool
deriving DecidableEq, Repr

/-- How far the scan has come. -/
inductive ScanStatus where
  | running
  /-- clean termination (R54, R297) -/
  | ended
  /-- terminated by an input-source error, with the process's status (R57) -/
  | failed (exitStatus : Nat)
deriving DecidableEq, Repr

/-- The machine. -/
structure State where
  par      : Params
  inp      : Inputs
  out      : Out
  source   : Source
  /-- the index of the next word (R52, R291); its address is computed, `State.address` -/
  k        : Nat
  /-- the lines emitted, oldest first (R56) -/
  lines    : List Line
  scan     : ScanStatus
  /-- an input-source error has been reported to the operator (R57) -/
  reported : Bool
  /-- the model's own: the counter the free values of Config are applied to (log entry 6) -/
  free     : Nat
deriving DecidableEq, Repr

/-- How a step can stop. -/
inductive Fault where
  /-- Raised by `step` when the scan is over (ended or failed): the process is gone and no word is left to decode
  (R297, R57, I11 "stuck"). Safe: no claim about a further word can be proved. -/
  | scanTerminated
deriving DecidableEq, Repr

/-- What the model refuses. -/
inductive Refusal where
  /-- An instruction of the table without a meaning; raised by no arm of `exec`. Safe. -/
  | notModelled (mnemonic : String)
  /-- Raised by `launch`: "may take only the values 0x08 and 0x0A" (R100, I1). Safe: the spec asks for it. -/
  | amoorFunct5NotAllowed (value : Nat)
  /-- Raised by `launch`: a BASE_ADDRESS outside 0 to 2^32 − 1 (R8, I4). Safe: the spec asks for it. -/
  | baseAddressOutOfRange (value : Int)
deriving DecidableEq, Repr

/-- The start of a scan with the spec's defaults (R8, R291) and no bytes. The block itself has no reset (R290): its
outputs are the record of the word on `insn_i`, which is 0 here (log entry 2) and so unrecognised (R29). -/
def State.reset : State where
  par      := Params.default
  inp      := ⟨0, false, false⟩
  out      := ⟨⟨0, 0, 0, 0, 0, 0, 0⟩, false, 0, 0, 0, 0, "???"⟩
  source   := ⟨[], false⟩
  k        := 0
  lines    := []
  scan     := .running
  reported := false
  free     := 0

end Sys2Proof.Machine
end

