-- ==== Sys2Proof/Machine/Operands.lean ====
section
/-! DEFINITION. Every operand form: output codes (R27, R28), text primitives (R12), the register namer (R36 to R39) and the
operand texts of the renderer (R110 to R114). -/

namespace Sys2Proof.Machine

/-- R27. -/
def fmtCode : Fmt → BitVec 3
  | .none => 0
  | .R => 1
  | .I => 2
  | .S => 3
  | .B => 4
  | .U => 5
  | .J => 6

/-- R28. -/
def formCode : Form → BitVec 4
  | .none => 0
  | .rrr => 1
  | .rri => 2
  | .load => 3
  | .store => 4
  | .branch => 5
  | .jal => 6
  | .jalr => 7
  | .ui => 8
  | .noops => 9
  | .lr => 10
  | .amo => 11

/-- The form of an operand layout (R28). -/
def operandsForm : Operands → Form
  | .rrr .. => .rrr
  | .rri .. => .rri
  | .load .. => .load
  | .store .. => .store
  | .branch .. => .branch
  | .jal .. => .jal
  | .jalr .. => .jalr
  | .ui .. => .ui
  | .noops => .noops
  | .lr .. => .lr
  | .amo .. => .amo

/-! ### Text primitives -/

/-- R12: `dec(n)`, decimal with no leading zeros. -/
def dec (n : Nat) : String := String.ofList (Nat.toDigits 10 n)

/-- One hexadecimal digit, `0`-`9` and `A`-`F` (R12, D8). -/
def hexDigit (d : BitVec 4) : Char :=
  if d.toNat < 10 then Char.ofNat (48 + d.toNat) else Char.ofNat (55 + d.toNat)

/-- R12: `hex8(v)`, eight digits, most significant first. -/
def hex8 (v : Word) : String :=
  String.ofList [hexDigit (v.extractLsb' 28 4), hexDigit (v.extractLsb' 24 4), hexDigit (v.extractLsb' 20 4),
    hexDigit (v.extractLsb' 16 4), hexDigit (v.extractLsb' 12 4), hexDigit (v.extractLsb' 8 4),
    hexDigit (v.extractLsb' 4 4), hexDigit (v.extractLsb' 0 4)]

/-! ### The register namer -/

/-- R38: the ABI-name table. Index 8 is `fp`, never `s0`. -/
def abiNames : Vector String 32 :=
  #v["zero", "ra", "sp", "gp", "tp", "t0", "t1", "t2",
     "fp", "s1", "a0", "a1", "a2", "a3", "a4", "a5",
     "a6", "a7", "s2", "s3", "s4", "s5", "s6", "s7",
     "s8", "s9", "s10", "s11", "t3", "t4", "t5", "t6"]

/-- R36, R37, R39: `regname(n, abi)`, total on the 32 indices. -/
def regname (n : Reg) (abi : Bool) : String :=
  if abi then abiNames[n.toNat]'n.isLt else "x" ++ dec n.toNat

/-! ### Operand texts -/

/-- R112: `IMM(v)`. -/
def immText (v : Word) : String := "#$" ++ hex8 v

/-- R113: `MEM(v, r)`. -/
def memText (abi : Bool) (v : Word) (r : Reg) : String := "$" ++ hex8 v ++ "(" ++ regname r abi ++ ")"

/-- R114: `REL(v)`. -/
def relText (v : Word) : String := "*+$" ++ hex8 v

/-- R111: `OPS(form)`, none for NOOPS. -/
def operandText (abi : Bool) (imm : Word) : Operands → Option String
  | .rrr rd rs1 rs2 => some (regname rd abi ++ "," ++ regname rs1 abi ++ "," ++ regname rs2 abi)
  | .rri rd rs1     => some (regname rd abi ++ "," ++ regname rs1 abi ++ "," ++ immText imm)
  | .load rd rs1    => some (regname rd abi ++ "," ++ memText abi imm rs1)
  | .store rs2 rs1  => some (regname rs2 abi ++ "," ++ memText abi imm rs1)
  | .branch rs1 rs2 => some (regname rs1 abi ++ "," ++ regname rs2 abi ++ "," ++ relText imm)
  | .jal rd         => some (regname rd abi ++ "," ++ relText imm)
  | .jalr rd rs1    => some (regname rd abi ++ "," ++ memText abi imm rs1)
  | .ui rd          => some (regname rd abi ++ "," ++ immText imm)
  | .noops          => none
  | .lr rd rs1      => some (regname rd abi ++ ",(" ++ regname rs1 abi ++ ")")
  | .amo rd rs2 rs1 => some (regname rd abi ++ "," ++ regname rs2 abi ++ ",(" ++ regname rs1 abi ++ ")")

/-- R110: the mnemonic, then one space and the operands if the form has any. -/
def renderText (mn : String) (abi : Bool) (imm : Word) (ops : Operands) : String :=
  match operandText abi imm ops with
  | some t => mn ++ " " ++ t
  | none   => mn

end Sys2Proof.Machine
end

