-- ==== Sys2Proof/Machine/Ops.lean ====
section
/-! DEFINITION. The shared operations: what the block drives, and what the environment does around it.
There is no operation for taking an exception or returning from one: "There is no trap entry and no trap return"
(60_exceptions.md R276), and the block "has no exception, trap or error output" (R270). What takes its place is the
unrecognised outcome, `unrecognisedOut`. -/

namespace Sys2Proof.Machine

/-! ### The block's record -/

/-- The record of a recognised word (R25): the fields of `insn_i` (R24), `valid_o` 1, the codes of its rule, its immediate
and its text (R110). -/
def recognisedOut (inp : Inputs) (code : BitVec 6) (mn : String) (fmt : Fmt) (ops : Operands) (imm : Word) : Out where
  fields := extractFields inp.insn
  valid  := true
  mnem   := code
  fmt    := fmtCode fmt
  form   := formCode (operandsForm ops)
  imm    := imm
  text   := renderText mn inp.abi imm ops

/-- R29, R115: the record of an unrecognised word. The field outputs still follow R24. -/
def unrecognisedOut (par : Params) (inp : Inputs) : Out where
  fields := extractFields inp.insn
  valid  := false
  mnem   := 0
  fmt    := fmtCode .none
  form   := formCode .none
  imm    := 0
  text   := par.unknownToken

/-- `out.f <- v` (R13) for the whole record: the output ports take the record's values, and the block does nothing else
(R20, R270). -/
def driveOut (o : Out) (s : State) : Host.Outcome State Fault Refusal := .next { s with out := o }

/-- R29, R270: the block's answer to a word outside the table, an ordinary output and no trap. -/
def driveUnrecognised (s : State) : Host.Outcome State Fault Refusal := driveOut (unrecognisedOut s.par s.inp) s

/-! ### The environment -/

/-- R53: the address of word `k`, `(BASE_ADDRESS + 4*k) mod 2^32`. -/
def wordAddress (par : Params) (k : Nat) : Word := par.baseAddress + BitVec.ofNat 32 (4 * k)

/-- R53, R291: the current address. -/
def State.address (s : State) : Word := wordAddress s.par s.k

/-- The bytes not yet read: word `k` begins at byte `4*k` (R52). -/
def pendingBytes (s : State) : List Byte := s.source.bytes.drop (4 * s.k)

/-- R52, R54, R61: what the environment reads next. -/
def fetch (s : State) : Decoded := decode s.par.amoorFunct5 (pendingBytes s)

/-- R55, R298: the environment drives `insn_i` with the word. -/
def presentWord (w : Word) (s : State) : State := { s with inp := { s.inp with insn := w } }

/-- R55: the line of one word, given its address, the word and its text. -/
def makeLine (par : Params) (address word : Word) (text : String) : Line :=
  if par.suppressRaw then .bare text else .listed address word text

/-- R55, R56: emit the current word's line and go on to the next word, at address + 4. -/
def emitLine (s : State) : State :=
  { s with lines := s.lines ++ [makeLine s.par s.address s.inp.insn s.out.text], k := s.k + 1 }

/-- The environment's part after the block has answered: the line of the word is emitted (R55). A stop passes on. -/
def emitAfter : Host.Outcome State Fault Refusal → Host.Outcome State Fault Refusal
  | .next s    => .next (emitLine s)
  | .fault f   => .fault f
  | .refused r => .refused r

/-- R54, R297: the end of the input; trailing bytes are discarded, no line, no error. DESIGN CHOICE (log entry 21): the spec does
not say what `insn_i` and the outputs hold once the scan is over; here the last word stays on the port, with its record. -/
def endScan (s : State) : State := { s with scan := .ended }

/-- R57, I11: an input-source error. Reported to the operator, a nonzero status, no further line; of the lines for the words
before the error point any prefix may have been emitted (a free value, log entry 6). DESIGN CHOICE (log entry 21): the
last word stays on `insn_i`, with its record on the outputs. -/
def failScan (s : State) : State :=
  { s with
    lines    := s.lines.take (Config.freePrefix s.free)
    scan     := .failed (Config.freeExitStatus s.free + 1)
    reported := true
    free     := s.free + 1 }

/-- No whole word is left: the source ends or fails (R54, R57, R297). -/
def finishScan (s : State) : State := if s.source.failing then failScan s else endScan s

/-- `bytes` with the four bytes of `w` at a byte offset; a gap before the offset is filled with zero bytes. -/
def placeWord (bytes : List Byte) (offset : Nat) (w : Word) : List Byte :=
  bytes.take offset ++ List.replicate (offset - bytes.length) 0 ++ wordBytes w ++ bytes.drop (offset + 4)

/-- The characters of a line (R55): LINE_FORMAT of the three values, or the text alone. -/
def lineText (lineFormat : LineFormat) : Line → String
  | .listed address word text => lineFormat address word text
  | .bare text                => text

end Sys2Proof.Machine
end

