-- ==== Sys2Proof/Machine/Atomic.lean ====
section
/-! DEFINITION. Atomic operations (49_atomic.md, R250 to R261): decoded and rendered; no reservation, no memory.
For each instruction the record its rule drives, and its meaning: the output ports take that record. -/

namespace Sys2Proof.Machine

/-- R251: the record of `lr.w`. -/
def recordLrW (rd rs1 _rs2 : Reg) (_order : BitVec 2) (inp : Inputs) : Out :=
  recognisedOut inp 48 "lr.w" .R (.lr rd rs1) 0

/-- R251: `lr.w` drives its record. -/
def execLrW (rd rs1 rs2 : Reg) (order : BitVec 2) (s : State) : Host.Outcome State Fault Refusal :=
  driveOut (recordLrW rd rs1 rs2 order s.inp) s

/-- R252: the record of `sc.w`. -/
def recordScW (rd rs2 rs1 : Reg) (_order : BitVec 2) (inp : Inputs) : Out :=
  recognisedOut inp 49 "sc.w" .R (.amo rd rs2 rs1) 0

/-- R252: `sc.w` drives its record. -/
def execScW (rd rs2 rs1 : Reg) (order : BitVec 2) (s : State) : Host.Outcome State Fault Refusal :=
  driveOut (recordScW rd rs2 rs1 order s.inp) s

/-- R253: the record of `amoswap.w`. -/
def recordAmoswapW (rd rs2 rs1 : Reg) (_order : BitVec 2) (inp : Inputs) : Out :=
  recognisedOut inp 50 "amoswap.w" .R (.amo rd rs2 rs1) 0

/-- R253: `amoswap.w` drives its record. -/
def execAmoswapW (rd rs2 rs1 : Reg) (order : BitVec 2) (s : State) : Host.Outcome State Fault Refusal :=
  driveOut (recordAmoswapW rd rs2 rs1 order s.inp) s

/-- R254: the record of `amoadd.w`. -/
def recordAmoaddW (rd rs2 rs1 : Reg) (_order : BitVec 2) (inp : Inputs) : Out :=
  recognisedOut inp 51 "amoadd.w" .R (.amo rd rs2 rs1) 0

/-- R254: `amoadd.w` drives its record. -/
def execAmoaddW (rd rs2 rs1 : Reg) (order : BitVec 2) (s : State) : Host.Outcome State Fault Refusal :=
  driveOut (recordAmoaddW rd rs2 rs1 order s.inp) s

/-- R255: the record of `amoxor.w`. -/
def recordAmoxorW (rd rs2 rs1 : Reg) (_order : BitVec 2) (inp : Inputs) : Out :=
  recognisedOut inp 52 "amoxor.w" .R (.amo rd rs2 rs1) 0

/-- R255: `amoxor.w` drives its record. -/
def execAmoxorW (rd rs2 rs1 : Reg) (order : BitVec 2) (s : State) : Host.Outcome State Fault Refusal :=
  driveOut (recordAmoxorW rd rs2 rs1 order s.inp) s

/-- R256: the record of `amoand.w`. -/
def recordAmoandW (rd rs2 rs1 : Reg) (_order : BitVec 2) (inp : Inputs) : Out :=
  recognisedOut inp 53 "amoand.w" .R (.amo rd rs2 rs1) 0

/-- R256: `amoand.w` drives its record. -/
def execAmoandW (rd rs2 rs1 : Reg) (order : BitVec 2) (s : State) : Host.Outcome State Fault Refusal :=
  driveOut (recordAmoandW rd rs2 rs1 order s.inp) s

/-- R257: the record of `amoor.w`. -/
def recordAmoorW (rd rs2 rs1 : Reg) (_order : BitVec 2) (inp : Inputs) : Out :=
  recognisedOut inp 54 "amoor.w" .R (.amo rd rs2 rs1) 0

/-- R257: `amoor.w` drives its record. -/
def execAmoorW (rd rs2 rs1 : Reg) (order : BitVec 2) (s : State) : Host.Outcome State Fault Refusal :=
  driveOut (recordAmoorW rd rs2 rs1 order s.inp) s

/-- R258: the record of `amomin.w`. -/
def recordAmominW (rd rs2 rs1 : Reg) (_order : BitVec 2) (inp : Inputs) : Out :=
  recognisedOut inp 55 "amomin.w" .R (.amo rd rs2 rs1) 0

/-- R258: `amomin.w` drives its record. -/
def execAmominW (rd rs2 rs1 : Reg) (order : BitVec 2) (s : State) : Host.Outcome State Fault Refusal :=
  driveOut (recordAmominW rd rs2 rs1 order s.inp) s

/-- R259: the record of `amomax.w`. -/
def recordAmomaxW (rd rs2 rs1 : Reg) (_order : BitVec 2) (inp : Inputs) : Out :=
  recognisedOut inp 56 "amomax.w" .R (.amo rd rs2 rs1) 0

/-- R259: `amomax.w` drives its record. -/
def execAmomaxW (rd rs2 rs1 : Reg) (order : BitVec 2) (s : State) : Host.Outcome State Fault Refusal :=
  driveOut (recordAmomaxW rd rs2 rs1 order s.inp) s

/-- R260: the record of `amominu.w`. -/
def recordAmominuW (rd rs2 rs1 : Reg) (_order : BitVec 2) (inp : Inputs) : Out :=
  recognisedOut inp 57 "amominu.w" .R (.amo rd rs2 rs1) 0

/-- R260: `amominu.w` drives its record. -/
def execAmominuW (rd rs2 rs1 : Reg) (order : BitVec 2) (s : State) : Host.Outcome State Fault Refusal :=
  driveOut (recordAmominuW rd rs2 rs1 order s.inp) s

/-- R261: the record of `amomaxu.w`. -/
def recordAmomaxuW (rd rs2 rs1 : Reg) (_order : BitVec 2) (inp : Inputs) : Out :=
  recognisedOut inp 58 "amomaxu.w" .R (.amo rd rs2 rs1) 0

/-- R261: `amomaxu.w` drives its record. -/
def execAmomaxuW (rd rs2 rs1 : Reg) (order : BitVec 2) (s : State) : Host.Outcome State Fault Refusal :=
  driveOut (recordAmomaxuW rd rs2 rs1 order s.inp) s

end Sys2Proof.Machine
end

