-- ==== Sys2Proof/Machine/Branch.lean ====
section
/-! DEFINITION. Branches (45_branch.md, R205 to R211): the offset is rendered, no target is formed (R34).
For each instruction the record its rule drives, and its meaning: the output ports take that record. -/

namespace Sys2Proof.Machine

/-- R206: the record of `beq`. -/
def recordBeq (rs1 rs2 : Reg) (imm : Word) (inp : Inputs) : Out :=
  recognisedOut inp 36 "beq" .B (.branch rs1 rs2) imm

/-- R206: `beq` drives its record. -/
def execBeq (rs1 rs2 : Reg) (imm : Word) (s : State) : Host.Outcome State Fault Refusal :=
  driveOut (recordBeq rs1 rs2 imm s.inp) s

/-- R207: the record of `bne`. -/
def recordBne (rs1 rs2 : Reg) (imm : Word) (inp : Inputs) : Out :=
  recognisedOut inp 37 "bne" .B (.branch rs1 rs2) imm

/-- R207: `bne` drives its record. -/
def execBne (rs1 rs2 : Reg) (imm : Word) (s : State) : Host.Outcome State Fault Refusal :=
  driveOut (recordBne rs1 rs2 imm s.inp) s

/-- R208: the record of `blt`. -/
def recordBlt (rs1 rs2 : Reg) (imm : Word) (inp : Inputs) : Out :=
  recognisedOut inp 38 "blt" .B (.branch rs1 rs2) imm

/-- R208: `blt` drives its record. -/
def execBlt (rs1 rs2 : Reg) (imm : Word) (s : State) : Host.Outcome State Fault Refusal :=
  driveOut (recordBlt rs1 rs2 imm s.inp) s

/-- R209: the record of `bge`. -/
def recordBge (rs1 rs2 : Reg) (imm : Word) (inp : Inputs) : Out :=
  recognisedOut inp 39 "bge" .B (.branch rs1 rs2) imm

/-- R209: `bge` drives its record. -/
def execBge (rs1 rs2 : Reg) (imm : Word) (s : State) : Host.Outcome State Fault Refusal :=
  driveOut (recordBge rs1 rs2 imm s.inp) s

/-- R210: the record of `bltu`. -/
def recordBltu (rs1 rs2 : Reg) (imm : Word) (inp : Inputs) : Out :=
  recognisedOut inp 40 "bltu" .B (.branch rs1 rs2) imm

/-- R210: `bltu` drives its record. -/
def execBltu (rs1 rs2 : Reg) (imm : Word) (s : State) : Host.Outcome State Fault Refusal :=
  driveOut (recordBltu rs1 rs2 imm s.inp) s

/-- R211: the record of `bgeu`. -/
def recordBgeu (rs1 rs2 : Reg) (imm : Word) (inp : Inputs) : Out :=
  recognisedOut inp 41 "bgeu" .B (.branch rs1 rs2) imm

/-- R211: `bgeu` drives its record. -/
def execBgeu (rs1 rs2 : Reg) (imm : Word) (s : State) : Host.Outcome State Fault Refusal :=
  driveOut (recordBgeu rs1 rs2 imm s.inp) s

end Sys2Proof.Machine
end

