-- ==== Sys2Proof/Machine/IType.lean ====
section
/-! DEFINITION. Register-immediate instructions (42_itype_arith.md, R165 to R174).
For each instruction the record its rule drives, and its meaning: the output ports take that record. -/

namespace Sys2Proof.Machine

/-- R166: the record of `addi`. -/
def recordAddi (rd rs1 : Reg) (imm : Word) (inp : Inputs) : Out :=
  recognisedOut inp 19 "addi" .I (.rri rd rs1) imm

/-- R166: `addi` drives its record. -/
def execAddi (rd rs1 : Reg) (imm : Word) (s : State) : Host.Outcome State Fault Refusal :=
  driveOut (recordAddi rd rs1 imm s.inp) s

/-- R167: the record of `slti`. -/
def recordSlti (rd rs1 : Reg) (imm : Word) (inp : Inputs) : Out :=
  recognisedOut inp 20 "slti" .I (.rri rd rs1) imm

/-- R167: `slti` drives its record. -/
def execSlti (rd rs1 : Reg) (imm : Word) (s : State) : Host.Outcome State Fault Refusal :=
  driveOut (recordSlti rd rs1 imm s.inp) s

/-- R168: the record of `sltiu`. -/
def recordSltiu (rd rs1 : Reg) (imm : Word) (inp : Inputs) : Out :=
  recognisedOut inp 21 "sltiu" .I (.rri rd rs1) imm

/-- R168: `sltiu` drives its record. -/
def execSltiu (rd rs1 : Reg) (imm : Word) (s : State) : Host.Outcome State Fault Refusal :=
  driveOut (recordSltiu rd rs1 imm s.inp) s

/-- R169: the record of `xori`. -/
def recordXori (rd rs1 : Reg) (imm : Word) (inp : Inputs) : Out :=
  recognisedOut inp 22 "xori" .I (.rri rd rs1) imm

/-- R169: `xori` drives its record. -/
def execXori (rd rs1 : Reg) (imm : Word) (s : State) : Host.Outcome State Fault Refusal :=
  driveOut (recordXori rd rs1 imm s.inp) s

/-- R170: the record of `ori`. -/
def recordOri (rd rs1 : Reg) (imm : Word) (inp : Inputs) : Out :=
  recognisedOut inp 23 "ori" .I (.rri rd rs1) imm

/-- R170: `ori` drives its record. -/
def execOri (rd rs1 : Reg) (imm : Word) (s : State) : Host.Outcome State Fault Refusal :=
  driveOut (recordOri rd rs1 imm s.inp) s

/-- R171: the record of `andi`. -/
def recordAndi (rd rs1 : Reg) (imm : Word) (inp : Inputs) : Out :=
  recognisedOut inp 24 "andi" .I (.rri rd rs1) imm

/-- R171: `andi` drives its record. -/
def execAndi (rd rs1 : Reg) (imm : Word) (s : State) : Host.Outcome State Fault Refusal :=
  driveOut (recordAndi rd rs1 imm s.inp) s

/-- R172: the record of `slli`. -/
def recordSlli (rd rs1 : Reg) (imm : Word) (inp : Inputs) : Out :=
  recognisedOut inp 25 "slli" .I (.rri rd rs1) imm

/-- R172: `slli` drives its record. -/
def execSlli (rd rs1 : Reg) (imm : Word) (s : State) : Host.Outcome State Fault Refusal :=
  driveOut (recordSlli rd rs1 imm s.inp) s

/-- R173: the record of `srli`. -/
def recordSrli (rd rs1 : Reg) (imm : Word) (inp : Inputs) : Out :=
  recognisedOut inp 26 "srli" .I (.rri rd rs1) imm

/-- R173: `srli` drives its record. -/
def execSrli (rd rs1 : Reg) (imm : Word) (s : State) : Host.Outcome State Fault Refusal :=
  driveOut (recordSrli rd rs1 imm s.inp) s

/-- R174: the record of `srai`. -/
def recordSrai (rd rs1 : Reg) (imm : Word) (inp : Inputs) : Out :=
  recognisedOut inp 27 "srai" .I (.rri rd rs1) imm

/-- R174: `srai` drives its record. -/
def execSrai (rd rs1 : Reg) (imm : Word) (s : State) : Host.Outcome State Fault Refusal :=
  driveOut (recordSrai rd rs1 imm s.inp) s

end Sys2Proof.Machine
end

