-- ==== Sys2Proof/Machine/Jump.lean ====
section
/-! DEFINITION. Jumps (46_jump.md, R220 to R222): the target is rendered, never resolved.
For each instruction the record its rule drives, and its meaning: the output ports take that record. -/

namespace Sys2Proof.Machine

/-- R221: the record of `jal`. -/
def recordJal (rd : Reg) (imm : Word) (inp : Inputs) : Out :=
  recognisedOut inp 42 "jal" .J (.jal rd) imm

/-- R221: `jal` drives its record. -/
def execJal (rd : Reg) (imm : Word) (s : State) : Host.Outcome State Fault Refusal :=
  driveOut (recordJal rd imm s.inp) s

/-- R222: the record of `jalr`. -/
def recordJalr (rd rs1 : Reg) (imm : Word) (inp : Inputs) : Out :=
  recognisedOut inp 43 "jalr" .I (.jalr rd rs1) imm

/-- R222: `jalr` drives its record. -/
def execJalr (rd rs1 : Reg) (imm : Word) (s : State) : Host.Outcome State Fault Refusal :=
  driveOut (recordJalr rd rs1 imm s.inp) s

end Sys2Proof.Machine
end

