-- ==== Sys2Proof/Machine/Load.lean ====
section
/-! DEFINITION. Loads (43_load.md, R185 to R190): decoded and rendered, no memory is read (R59).
For each instruction the record its rule drives, and its meaning: the output ports take that record. -/

namespace Sys2Proof.Machine

/-- R186: the record of `lb`. -/
def recordLb (rd rs1 : Reg) (imm : Word) (inp : Inputs) : Out :=
  recognisedOut inp 28 "lb" .I (.load rd rs1) imm

/-- R186: `lb` drives its record. -/
def execLb (rd rs1 : Reg) (imm : Word) (s : State) : Host.Outcome State Fault Refusal :=
  driveOut (recordLb rd rs1 imm s.inp) s

/-- R187: the record of `lh`. -/
def recordLh (rd rs1 : Reg) (imm : Word) (inp : Inputs) : Out :=
  recognisedOut inp 29 "lh" .I (.load rd rs1) imm

/-- R187: `lh` drives its record. -/
def execLh (rd rs1 : Reg) (imm : Word) (s : State) : Host.Outcome State Fault Refusal :=
  driveOut (recordLh rd rs1 imm s.inp) s

/-- R188: the record of `lw`. -/
def recordLw (rd rs1 : Reg) (imm : Word) (inp : Inputs) : Out :=
  recognisedOut inp 30 "lw" .I (.load rd rs1) imm

/-- R188: `lw` drives its record. -/
def execLw (rd rs1 : Reg) (imm : Word) (s : State) : Host.Outcome State Fault Refusal :=
  driveOut (recordLw rd rs1 imm s.inp) s

/-- R189: the record of `lbu`. -/
def recordLbu (rd rs1 : Reg) (imm : Word) (inp : Inputs) : Out :=
  recognisedOut inp 31 "lbu" .I (.load rd rs1) imm

/-- R189: `lbu` drives its record. -/
def execLbu (rd rs1 : Reg) (imm : Word) (s : State) : Host.Outcome State Fault Refusal :=
  driveOut (recordLbu rd rs1 imm s.inp) s

/-- R190: the record of `lhu`. -/
def recordLhu (rd rs1 : Reg) (imm : Word) (inp : Inputs) : Out :=
  recognisedOut inp 32 "lhu" .I (.load rd rs1) imm

/-- R190: `lhu` drives its record. -/
def execLhu (rd rs1 : Reg) (imm : Word) (s : State) : Host.Outcome State Fault Refusal :=
  driveOut (recordLhu rd rs1 imm s.inp) s

end Sys2Proof.Machine
end

