-- ==== Sys2Proof/Machine/MExt.lean ====
section
/-! DEFINITION. Multiply and divide (41_m_extension.md, R150 to R158).
For each instruction the record its rule drives, and its meaning: the output ports take that record. -/

namespace Sys2Proof.Machine

/-- R151: the record of `mul`. -/
def recordMul (rd rs1 rs2 : Reg) (inp : Inputs) : Out :=
  recognisedOut inp 11 "mul" .R (.rrr rd rs1 rs2) 0

/-- R151: `mul` drives its record. -/
def execMul (rd rs1 rs2 : Reg) (s : State) : Host.Outcome State Fault Refusal :=
  driveOut (recordMul rd rs1 rs2 s.inp) s

/-- R152: the record of `mulh`. -/
def recordMulh (rd rs1 rs2 : Reg) (inp : Inputs) : Out :=
  recognisedOut inp 12 "mulh" .R (.rrr rd rs1 rs2) 0

/-- R152: `mulh` drives its record. -/
def execMulh (rd rs1 rs2 : Reg) (s : State) : Host.Outcome State Fault Refusal :=
  driveOut (recordMulh rd rs1 rs2 s.inp) s

/-- R153: the record of `mulhsu`. -/
def recordMulhsu (rd rs1 rs2 : Reg) (inp : Inputs) : Out :=
  recognisedOut inp 13 "mulhsu" .R (.rrr rd rs1 rs2) 0

/-- R153: `mulhsu` drives its record. -/
def execMulhsu (rd rs1 rs2 : Reg) (s : State) : Host.Outcome State Fault Refusal :=
  driveOut (recordMulhsu rd rs1 rs2 s.inp) s

/-- R154: the record of `mulhu`. -/
def recordMulhu (rd rs1 rs2 : Reg) (inp : Inputs) : Out :=
  recognisedOut inp 14 "mulhu" .R (.rrr rd rs1 rs2) 0

/-- R154: `mulhu` drives its record. -/
def execMulhu (rd rs1 rs2 : Reg) (s : State) : Host.Outcome State Fault Refusal :=
  driveOut (recordMulhu rd rs1 rs2 s.inp) s

/-- R155: the record of `div`. -/
def recordDiv (rd rs1 rs2 : Reg) (inp : Inputs) : Out :=
  recognisedOut inp 15 "div" .R (.rrr rd rs1 rs2) 0

/-- R155: `div` drives its record. -/
def execDiv (rd rs1 rs2 : Reg) (s : State) : Host.Outcome State Fault Refusal :=
  driveOut (recordDiv rd rs1 rs2 s.inp) s

/-- R156: the record of `divu`. -/
def recordDivu (rd rs1 rs2 : Reg) (inp : Inputs) : Out :=
  recognisedOut inp 16 "divu" .R (.rrr rd rs1 rs2) 0

/-- R156: `divu` drives its record. -/
def execDivu (rd rs1 rs2 : Reg) (s : State) : Host.Outcome State Fault Refusal :=
  driveOut (recordDivu rd rs1 rs2 s.inp) s

/-- R157: the record of `rem`. -/
def recordRem (rd rs1 rs2 : Reg) (inp : Inputs) : Out :=
  recognisedOut inp 17 "rem" .R (.rrr rd rs1 rs2) 0

/-- R157: `rem` drives its record. -/
def execRem (rd rs1 rs2 : Reg) (s : State) : Host.Outcome State Fault Refusal :=
  driveOut (recordRem rd rs1 rs2 s.inp) s

/-- R158: the record of `remu`. -/
def recordRemu (rd rs1 rs2 : Reg) (inp : Inputs) : Out :=
  recognisedOut inp 18 "remu" .R (.rrr rd rs1 rs2) 0

/-- R158: `remu` drives its record. -/
def execRemu (rd rs1 rs2 : Reg) (s : State) : Host.Outcome State Fault Refusal :=
  driveOut (recordRemu rd rs1 rs2 s.inp) s

end Sys2Proof.Machine
end

