-- ==== Sys2Proof/Machine/RType.lean ====
section
/-! DEFINITION. Register-register integer instructions (40_rtype.md, R130 to R140).
For each instruction the record its rule drives, and its meaning: the output ports take that record. -/

namespace Sys2Proof.Machine

/-- R131: the record of `add`. -/
def recordAdd (rd rs1 rs2 : Reg) (inp : Inputs) : Out :=
  recognisedOut inp 1 "add" .R (.rrr rd rs1 rs2) 0

/-- R131: `add` drives its record. -/
def execAdd (rd rs1 rs2 : Reg) (s : State) : Host.Outcome State Fault Refusal :=
  driveOut (recordAdd rd rs1 rs2 s.inp) s

/-- R132: the record of `sub`. -/
def recordSub (rd rs1 rs2 : Reg) (inp : Inputs) : Out :=
  recognisedOut inp 2 "sub" .R (.rrr rd rs1 rs2) 0

/-- R132: `sub` drives its record. -/
def execSub (rd rs1 rs2 : Reg) (s : State) : Host.Outcome State Fault Refusal :=
  driveOut (recordSub rd rs1 rs2 s.inp) s

/-- R133: the record of `sll`. -/
def recordSll (rd rs1 rs2 : Reg) (inp : Inputs) : Out :=
  recognisedOut inp 3 "sll" .R (.rrr rd rs1 rs2) 0

/-- R133: `sll` drives its record. -/
def execSll (rd rs1 rs2 : Reg) (s : State) : Host.Outcome State Fault Refusal :=
  driveOut (recordSll rd rs1 rs2 s.inp) s

/-- R134: the record of `slt`. -/
def recordSlt (rd rs1 rs2 : Reg) (inp : Inputs) : Out :=
  recognisedOut inp 4 "slt" .R (.rrr rd rs1 rs2) 0

/-- R134: `slt` drives its record. -/
def execSlt (rd rs1 rs2 : Reg) (s : State) : Host.Outcome State Fault Refusal :=
  driveOut (recordSlt rd rs1 rs2 s.inp) s

/-- R135: the record of `sltu`. -/
def recordSltu (rd rs1 rs2 : Reg) (inp : Inputs) : Out :=
  recognisedOut inp 5 "sltu" .R (.rrr rd rs1 rs2) 0

/-- R135: `sltu` drives its record. -/
def execSltu (rd rs1 rs2 : Reg) (s : State) : Host.Outcome State Fault Refusal :=
  driveOut (recordSltu rd rs1 rs2 s.inp) s

/-- R136: the record of `xor`. -/
def recordXor (rd rs1 rs2 : Reg) (inp : Inputs) : Out :=
  recognisedOut inp 6 "xor" .R (.rrr rd rs1 rs2) 0

/-- R136: `xor` drives its record. -/
def execXor (rd rs1 rs2 : Reg) (s : State) : Host.Outcome State Fault Refusal :=
  driveOut (recordXor rd rs1 rs2 s.inp) s

/-- R137: the record of `srl`. -/
def recordSrl (rd rs1 rs2 : Reg) (inp : Inputs) : Out :=
  recognisedOut inp 7 "srl" .R (.rrr rd rs1 rs2) 0

/-- R137: `srl` drives its record. -/
def execSrl (rd rs1 rs2 : Reg) (s : State) : Host.Outcome State Fault Refusal :=
  driveOut (recordSrl rd rs1 rs2 s.inp) s

/-- R138: the record of `sra`. -/
def recordSra (rd rs1 rs2 : Reg) (inp : Inputs) : Out :=
  recognisedOut inp 8 "sra" .R (.rrr rd rs1 rs2) 0

/-- R138: `sra` drives its record. -/
def execSra (rd rs1 rs2 : Reg) (s : State) : Host.Outcome State Fault Refusal :=
  driveOut (recordSra rd rs1 rs2 s.inp) s

/-- R139: the record of `or`. -/
def recordOr (rd rs1 rs2 : Reg) (inp : Inputs) : Out :=
  recognisedOut inp 9 "or" .R (.rrr rd rs1 rs2) 0

/-- R139: `or` drives its record. -/
def execOr (rd rs1 rs2 : Reg) (s : State) : Host.Outcome State Fault Refusal :=
  driveOut (recordOr rd rs1 rs2 s.inp) s

/-- R140: the record of `and`. -/
def recordAnd (rd rs1 rs2 : Reg) (inp : Inputs) : Out :=
  recognisedOut inp 10 "and" .R (.rrr rd rs1 rs2) 0

/-- R140: `and` drives its record. -/
def execAnd (rd rs1 rs2 : Reg) (s : State) : Host.Outcome State Fault Refusal :=
  driveOut (recordAnd rd rs1 rs2 s.inp) s

end Sys2Proof.Machine
end

