-- ==== Sys2Proof/Machine/Store.lean ====
section
/-! DEFINITION. Stores (44_store.md, R195 to R198): decoded and rendered, no memory is written (R59).
For each instruction the record its rule drives, and its meaning: the output ports take that record. -/

namespace Sys2Proof.Machine

/-- R196: the record of `sb`. -/
def recordSb (rs2 rs1 : Reg) (imm : Word) (inp : Inputs) : Out :=
  recognisedOut inp 33 "sb" .S (.store rs2 rs1) imm

/-- R196: `sb` drives its record. -/
def execSb (rs2 rs1 : Reg) (imm : Word) (s : State) : Host.Outcome State Fault Refusal :=
  driveOut (recordSb rs2 rs1 imm s.inp) s

/-- R197: the record of `sh`. -/
def recordSh (rs2 rs1 : Reg) (imm : Word) (inp : Inputs) : Out :=
  recognisedOut inp 34 "sh" .S (.store rs2 rs1) imm

/-- R197: `sh` drives its record. -/
def execSh (rs2 rs1 : Reg) (imm : Word) (s : State) : Host.Outcome State Fault Refusal :=
  driveOut (recordSh rs2 rs1 imm s.inp) s

/-- R198: the record of `sw`. -/
def recordSw (rs2 rs1 : Reg) (imm : Word) (inp : Inputs) : Out :=
  recognisedOut inp 35 "sw" .S (.store rs2 rs1) imm

/-- R198: `sw` drives its record. -/
def execSw (rs2 rs1 : Reg) (imm : Word) (s : State) : Host.Outcome State Fault Refusal :=
  driveOut (recordSw rs2 rs1 imm s.inp) s

end Sys2Proof.Machine
end

