-- ==== Sys2Proof/Machine/System.lean ====
section
/-! DEFINITION. Environment call and breakpoint (48_system.md, R240 to R242): "The block raises no trap for either instruction".
For each instruction the record its rule drives, and its meaning: the output ports take that record. -/

namespace Sys2Proof.Machine

/-- R241: the record of `ecall`. -/
def recordEcall (_rd _rs1 : Reg) (inp : Inputs) : Out :=
  recognisedOut inp 46 "ecall" .I .noops 0

/-- R241: `ecall` drives its record. -/
def execEcall (rd rs1 : Reg) (s : State) : Host.Outcome State Fault Refusal :=
  driveOut (recordEcall rd rs1 s.inp) s

/-- R242: the record of `ebreak`. -/
def recordEbreak (_rd _rs1 : Reg) (inp : Inputs) : Out :=
  recognisedOut inp 47 "ebreak" .I .noops 1

/-- R242: `ebreak` drives its record. -/
def execEbreak (rd rs1 : Reg) (s : State) : Host.Outcome State Fault Refusal :=
  driveOut (recordEbreak rd rs1 s.inp) s

end Sys2Proof.Machine
end

