-- ==== Sys2Proof/Machine/Upper.lean ====
section
/-! DEFINITION. Upper immediates (47_upper.md, R230 to R232): auipc adds nothing to an address.
For each instruction the record its rule drives, and its meaning: the output ports take that record. -/

namespace Sys2Proof.Machine

/-- R231: the record of `lui`. -/
def recordLui (rd : Reg) (imm : Word) (inp : Inputs) : Out :=
  recognisedOut inp 44 "lui" .U (.ui rd) imm

/-- R231: `lui` drives its record. -/
def execLui (rd : Reg) (imm : Word) (s : State) : Host.Outcome State Fault Refusal :=
  driveOut (recordLui rd imm s.inp) s

/-- R232: the record of `auipc`. -/
def recordAuipc (rd : Reg) (imm : Word) (inp : Inputs) : Out :=
  recognisedOut inp 45 "auipc" .U (.ui rd) imm

/-- R232: `auipc` drives its record. -/
def execAuipc (rd : Reg) (imm : Word) (s : State) : Host.Outcome State Fault Refusal :=
  driveOut (recordAuipc rd imm s.inp) s

end Sys2Proof.Machine
end

