-- ==== Sys2Proof/Machine/Block.lean ====
section
/-! DEFINITION. The whole block as one total function of its input ports (00_scope.md R14). -/

namespace Sys2Proof.Machine

/-- The record each instruction's rule drives. -/
def recordOf (i : Instr) (inp : Inputs) : Out :=
  match i with
  | .add rd rs1 rs2 => recordAdd rd rs1 rs2 inp
  | .sub rd rs1 rs2 => recordSub rd rs1 rs2 inp
  | .sll rd rs1 rs2 => recordSll rd rs1 rs2 inp
  | .slt rd rs1 rs2 => recordSlt rd rs1 rs2 inp
  | .sltu rd rs1 rs2 => recordSltu rd rs1 rs2 inp
  | .xor rd rs1 rs2 => recordXor rd rs1 rs2 inp
  | .srl rd rs1 rs2 => recordSrl rd rs1 rs2 inp
  | .sra rd rs1 rs2 => recordSra rd rs1 rs2 inp
  | .or rd rs1 rs2 => recordOr rd rs1 rs2 inp
  | .and rd rs1 rs2 => recordAnd rd rs1 rs2 inp
  | .mul rd rs1 rs2 => recordMul rd rs1 rs2 inp
  | .mulh rd rs1 rs2 => recordMulh rd rs1 rs2 inp
  | .mulhsu rd rs1 rs2 => recordMulhsu rd rs1 rs2 inp
  | .mulhu rd rs1 rs2 => recordMulhu rd rs1 rs2 inp
  | .div rd rs1 rs2 => recordDiv rd rs1 rs2 inp
  | .divu rd rs1 rs2 => recordDivu rd rs1 rs2 inp
  | .rem rd rs1 rs2 => recordRem rd rs1 rs2 inp
  | .remu rd rs1 rs2 => recordRemu rd rs1 rs2 inp
  | .addi rd rs1 imm => recordAddi rd rs1 imm inp
  | .slti rd rs1 imm => recordSlti rd rs1 imm inp
  | .sltiu rd rs1 imm => recordSltiu rd rs1 imm inp
  | .xori rd rs1 imm => recordXori rd rs1 imm inp
  | .ori rd rs1 imm => recordOri rd rs1 imm inp
  | .andi rd rs1 imm => recordAndi rd rs1 imm inp
  | .slli rd rs1 imm => recordSlli rd rs1 imm inp
  | .srli rd rs1 imm => recordSrli rd rs1 imm inp
  | .srai rd rs1 imm => recordSrai rd rs1 imm inp
  | .lb rd rs1 imm => recordLb rd rs1 imm inp
  | .lh rd rs1 imm => recordLh rd rs1 imm inp
  | .lw rd rs1 imm => recordLw rd rs1 imm inp
  | .lbu rd rs1 imm => recordLbu rd rs1 imm inp
  | .lhu rd rs1 imm => recordLhu rd rs1 imm inp
  | .sb rs2 rs1 imm => recordSb rs2 rs1 imm inp
  | .sh rs2 rs1 imm => recordSh rs2 rs1 imm inp
  | .sw rs2 rs1 imm => recordSw rs2 rs1 imm inp
  | .beq rs1 rs2 imm => recordBeq rs1 rs2 imm inp
  | .bne rs1 rs2 imm => recordBne rs1 rs2 imm inp
  | .blt rs1 rs2 imm => recordBlt rs1 rs2 imm inp
  | .bge rs1 rs2 imm => recordBge rs1 rs2 imm inp
  | .bltu rs1 rs2 imm => recordBltu rs1 rs2 imm inp
  | .bgeu rs1 rs2 imm => recordBgeu rs1 rs2 imm inp
  | .jal rd imm => recordJal rd imm inp
  | .jalr rd rs1 imm => recordJalr rd rs1 imm inp
  | .lui rd imm => recordLui rd imm inp
  | .auipc rd imm => recordAuipc rd imm inp
  | .ecall rd rs1 => recordEcall rd rs1 inp
  | .ebreak rd rs1 => recordEbreak rd rs1 inp
  | .lrW rd rs1 rs2 order => recordLrW rd rs1 rs2 order inp
  | .scW rd rs2 rs1 order => recordScW rd rs2 rs1 order inp
  | .amoswapW rd rs2 rs1 order => recordAmoswapW rd rs2 rs1 order inp
  | .amoaddW rd rs2 rs1 order => recordAmoaddW rd rs2 rs1 order inp
  | .amoxorW rd rs2 rs1 order => recordAmoxorW rd rs2 rs1 order inp
  | .amoandW rd rs2 rs1 order => recordAmoandW rd rs2 rs1 order inp
  | .amoorW rd rs2 rs1 order => recordAmoorW rd rs2 rs1 order inp
  | .amominW rd rs2 rs1 order => recordAmominW rd rs2 rs1 order inp
  | .amomaxW rd rs2 rs1 order => recordAmomaxW rd rs2 rs1 order inp
  | .amominuW rd rs2 rs1 order => recordAmominuW rd rs2 rs1 order inp
  | .amomaxuW rd rs2 rs1 order => recordAmomaxuW rd rs2 rs1 order inp

/-- R14: `decode(insn, abi, pseudo) -> Out`, for the block's parameters `AMOOR_FUNCT5` and `UNKNOWN_TOKEN`: the record of the
instruction the dispatcher finds (R90), or the unrecognised record (R29). -/
def block (par : Params) (inp : Inputs) : Out :=
  match decodeWord par.amoorFunct5 inp.insn with
  | some i => recordOf i inp
  | none   => unrecognisedOut par inp

/-- Whoever drives the input ports drives them anew (R32, R295): the ports take the values, and the outputs follow at once
(R20, R296). -/
def redrive (inp : Inputs) (s : State) : State := { s with inp := inp, out := block s.par inp }

end Sys2Proof.Machine
end

