-- ==== Sys2Proof/Machine/Scan.lean ====
section
/-! DEFINITION. The scan as a whole (20_memory.md R51 to R56): the words of a byte stream, the listing they give, decoding in
any order, and the launch of a scan by the operator. -/

namespace Sys2Proof.Machine

/-- R52, R54: the words of a byte stream; the `n mod 4` trailing bytes are discarded. -/
def wordsOf : List Byte → List Word
  | b0 :: b1 :: b2 :: b3 :: rest => assembleWord b0 b1 b2 b3 :: wordsOf rest
  | _                            => []

/-- R55: the line of word `k`, when the ports hold `abi` and `pseudo`. -/
def wordLine (par : Params) (abi pseudo : Bool) (k : Nat) (w : Word) : Line :=
  makeLine par (wordAddress par k) w (block par ⟨w, abi, pseudo⟩).text

/-- The lines of words `k`, `k + 1`, ... (R56: in increasing `k`, one per word). -/
def linesFrom (par : Params) (abi pseudo : Bool) (k : Nat) : List Word → List Line
  | []      => []
  | w :: ws => wordLine par abi pseudo k w :: linesFrom par abi pseudo (k + 1) ws

/-- R55, R56: the listing of a byte stream. -/
def listing (par : Params) (abi pseudo : Bool) (bytes : List Byte) : List Line :=
  linesFrom par abi pseudo 0 (wordsOf bytes)

/-! ### Decoding in any order (R56, R298, I13) -/

/-- Decode the words with the given indices, in the given order; each result carries its word's index. -/
def decodeInOrder (par : Params) (abi pseudo : Bool) (bytes : List Byte) (order : List Nat) : List (Nat × Line) :=
  order.filterMap fun k => ((wordsOf bytes)[k]?).map fun w => (k, wordLine par abi pseudo k w)

/-- Put one result in its place among results in order of their index. -/
def insertResult (r : Nat × Line) : List (Nat × Line) → List (Nat × Line)
  | []      => [r]
  | q :: qs => if r.1 ≤ q.1 then r :: q :: qs else q :: insertResult r qs

/-- "reassembling the lines in address order" (R56). -/
def reassemble (results : List (Nat × Line)) : List Line :=
  (results.foldr insertResult []).map Prod.snd

/-! ### The operator -/

/-- The launch of a scan (R8, R291, R293, R298): the operator supplies the bytes and the options, every one fixed before word
0. The block's outputs follow the ports from the start (R290). A value of a parameter the spec does not allow is refused (R100, I1, I4). -/
def launch (amoorFunct5 : Nat) (unknownToken : String) (baseAddress : Int) (abi pseudo suppressRaw : Bool)
    (source : Source) : Host.Outcome State Fault Refusal :=
  match AmoorFunct5.ofNat? amoorFunct5 with
  | none   => .refused (.amoorFunct5NotAllowed amoorFunct5)
  | some a =>
    if 0 ≤ baseAddress ∧ baseAddress < 2 ^ 32 then
      let par : Params := ⟨a, unknownToken, BitVec.ofInt 32 baseAddress, suppressRaw⟩
      .next (redrive ⟨0, abi, pseudo⟩ { State.reset with par := par, source := source })
    else .refused (.baseAddressOutOfRange baseAddress)

end Sys2Proof.Machine
end

