-- ==== Sys2Proof/Machine/Step.lean ====
section
/-! DEFINITION. One step: the environment reads one word, the block answers, the line is emitted (20_memory.md R55, R56); or
the scan ends. -/

namespace Sys2Proof.Machine

/-- One step of the scan loop. A recognised word runs its instruction's meaning; an unrecognised word drives the fixed record
(R29) and the scan goes on (R273); with no whole word left the scan ends (R297). -/
def step (s : State) : Host.Outcome State Fault Refusal :=
  match s.scan with
  | .running =>
    match fetch s with
    | .instr i w _      => emitAfter (exec i (presentWord w s))
    | .unrecognised w _ => emitAfter (driveUnrecognised (presentWord w s))
    | .noWord           => .next (finishScan s)
  | .ended    => .fault .scanTerminated
  | .failed _ => .fault .scanTerminated

/-- The state whose very next word is `w`: the word stands at byte `4*k` of the source, and the scan is running (log entry 8). -/
def State.withFetchWord (s : State) (nbits w : Nat) : State :=
  { s with
    source := { s.source with bytes := placeWord s.source.bytes (4 * s.k) (tableWord nbits w) }
    scan   := .running }

end Sys2Proof.Machine
end

