-- ==== Sys2Proof/Machine/Output.lean ====
section
/-! DEFINITION. What the environment writes out (20_memory.md R55), with all seven parameters of 00_scope.md R8. -/

namespace Sys2Proof.Machine

/-- R55: the characters of the lines emitted so far, oldest first. -/
def printed (lineFormat : LineFormat) (s : State) : List String := s.lines.map (lineText lineFormat)

/-- R8, D19: the whole listing as a function of the seven named parameters and the bytes. The scan is launched and run to its
end, `floor(n/4)` words and the step that ends it (R297); its lines come out in the characters of `lineFormat`. -/
def disassemble (lineFormat : LineFormat) (amoorFunct5 : Nat) (unknownToken : String) (baseAddress : Int)
    (abi pseudo suppressRaw : Bool) (source : Source) : Host.Outcome (List String) Fault Refusal :=
  match launch amoorFunct5 unknownToken baseAddress abi pseudo suppressRaw source with
  | .fault f   => .fault f
  | .refused r => .refused r
  | .next s    =>
    match core.run (source.bytes.length / 4 + 1) s with
    | .next t    => .next (printed lineFormat t)
    | .fault f   => .fault f
    | .refused r => .refused r

end Sys2Proof.Machine
end

