-- ==== Sys2Proof/Safety.lean ====
section
/-! DEFINITION. What a safe run of the scan is: the outputs follow the inputs, the lines are those of the words read, and an
ended or failed scan is what 20_memory.md and 70_reset_and_hazards.md say it is. -/

namespace Sys2Proof.Safety

open Sys2Proof.Machine

/-- R20, R23: every output is a function of the current inputs alone. -/
def OutputsSettled (s : State) : Prop := s.out = block s.par s.inp

/-- The whole listing of the state's byte source (R55, R56). -/
def fullListing (s : State) : List Line := listing s.par s.inp.abi s.inp.pseudo s.source.bytes

/-- The lines are the ones the status calls for.
Running: exactly the lines of the `k` words read, and no error reported.
Ended (R54, R297): all words read, all lines out, the source ended without an error.
Failed (R57, I11): the source failed, the status is nonzero, the error was reported, and the lines are a prefix of the listing. -/
def LinesAsListed (s : State) : Prop :=
  match s.scan with
  | .running  => 4 * s.k ≤ s.source.bytes.length ∧ s.lines = (fullListing s).take s.k ∧ s.reported = false
  | .ended    => s.k = s.source.bytes.length / 4 ∧ s.lines = fullListing s ∧ s.source.failing = false ∧ s.reported = false
  | .failed e => e ≠ 0 ∧ s.lines <+: fullListing s ∧ s.source.failing = true ∧ s.reported = true

/-- The invariant of a scan. -/
def Inv (s : State) : Prop := OutputsSettled s ∧ LinesAsListed s

end Sys2Proof.Safety
end

