-- ==== Sys2Proof/Certificates/Slice0/Obligations.lean ====
section
/-! DEFINITION. The statements for the provers. -/

namespace Sys2Proof.Claims

open Sys2Proof.Machine

/-- The record of a recognised word (R25): its fields, `valid_o` 1, and the given codes, immediate and text. -/
def recognised (inp : Inputs) (code : BitVec 6) (fmt : BitVec 3) (form : BitVec 4) (imm : Word) (text : String) : Out :=
  ⟨extractFields inp.insn, true, code, fmt, form, imm, text⟩

/-- The "Decode" line of a family rule: whatever the ports hold, a word with the given match under the given mask drives the
given codes, and the immediate and the text are the given functions of the word, its fields and `abi_i`. -/
def WordDrives (mask value : Word) (code : BitVec 6) (fmt : BitVec 3) (form : BitVec 4) (imm : Word → Word)
    (text : FieldSet → Bool → Word → String) : Prop :=
  ∀ (par : Params) (inp : Inputs), inp.insn &&& mask = value →
    block par inp = recognised inp code fmt form (imm inp.insn) (text (extractFields inp.insn) inp.abi (imm inp.insn))

/-- What a meaning answers: a next state in which the output ports hold the given record and nothing else has changed. -/
def Answers (i : Instr) (s : State) (o : Out) : Prop := exec i s = .next { s with out := o }

/-- The mnemonics of R26, code 1 first. -/
def mnemonics : List String :=
  ["add", "sub", "sll", "slt", "sltu", "xor", "srl", "sra", "or", "and"] ++
  ["mul", "mulh", "mulhsu", "mulhu", "div", "divu", "rem", "remu"] ++
  ["addi", "slti", "sltiu", "xori", "ori", "andi", "slli", "srli", "srai"] ++
  ["lb", "lh", "lw", "lbu", "lhu"] ++ ["sb", "sh", "sw"] ++
  ["beq", "bne", "blt", "bge", "bltu", "bgeu"] ++ ["jal", "jalr"] ++ ["lui", "auipc"] ++ ["ecall", "ebreak"] ++
  ["lr.w", "sc.w", "amoswap.w", "amoadd.w", "amoxor.w", "amoand.w", "amoor.w"] ++
  ["amomin.w", "amomax.w", "amominu.w", "amomaxu.w"]

/-- The value of a string of digits, most significant first, each digit's value being its place in `digits`. -/
def digitsValue (digits : String) (t : String) : Nat :=
  t.toList.foldl (fun n c => n * digits.length + digits.toList.idxOf c) 0

/-- A text whose pieces are fixed strings and register names. -/
def spell (abi : Bool) (parts : List (String ⊕ Reg)) : String :=
  parts.foldr (fun p t => p.elim id (regname · abi) ++ t) ""

/-- The bits of a recognised word that are keyed or rendered: all but the unkeyed ones of R105. -/
def renderedBits (o : Out) : Word :=
  if o.form = 9 then 0xFFF0707F else if o.form = 10 then 0xF80FFFFF else if o.form = 11 then 0xF9FFFFFF else 0xFFFFFFFF

/-- The same state with another `pseudo_i`. -/
def withPseudo (p : Bool) (s : State) : State := { s with inp := { s.inp with pseudo := p } }

/-- The same outcome with another `pseudo_i`. -/
def outcomeWithPseudo (p : Bool) : Host.Outcome State Fault Refusal → Host.Outcome State Fault Refusal
  | .next s    => .next (withPseudo p s)
  | .fault f   => .fault f
  | .refused r => .refused r

/-- The start of a scan: no word read (R291), and by the model's choice running, no line out and no error reported (log entries 8
and 19). -/
def AtStart (s : State) : Prop := s.scan = .running ∧ s.k = 0 ∧ s.lines = [] ∧ s.reported = false

end Sys2Proof.Claims

open Sys2Proof Sys2Proof.Machine Sys2Proof.Safety Sys2Proof.Claims

/-- R131 to R140, the Decode line of each register-register instruction. -/
def Obligations.RegisterRegisterWordsDecode : Prop :=
  ∀ e ∈ ([(0x00000033, 1, "add"), (0x40000033, 2, "sub"), (0x00001033, 3, "sll"),
        (0x00002033, 4, "slt"), (0x00003033, 5, "sltu"), (0x00004033, 6, "xor"),
        (0x00005033, 7, "srl"), (0x40005033, 8, "sra"), (0x00006033, 9, "or"),
        (0x00007033, 10, "and")] : List (Word × BitVec 6 × String)),
    WordDrives 0xFE00707F e.1 e.2.1 1 1 (fun _ => 0)
      (fun f abi _ => e.2.2 ++ " " ++ regname f.rd abi ++ "," ++ regname f.rs1 abi ++ "," ++ regname f.rs2 abi)

/-- R151 to R158, the Decode line of each multiply and divide instruction. -/
def Obligations.MultiplyDivideWordsDecode : Prop :=
  ∀ e ∈ ([(0x02000033, 11, "mul"), (0x02001033, 12, "mulh"), (0x02002033, 13, "mulhsu"),
        (0x02003033, 14, "mulhu"), (0x02004033, 15, "div"), (0x02005033, 16, "divu"),
        (0x02006033, 17, "rem"), (0x02007033, 18, "remu")] : List (Word × BitVec 6 × String)),
    WordDrives 0xFE00707F e.1 e.2.1 1 1 (fun _ => 0)
      (fun f abi _ => e.2.2 ++ " " ++ regname f.rd abi ++ "," ++ regname f.rs1 abi ++ "," ++ regname f.rs2 abi)

/-- R166 to R171, the Decode line of each register-immediate instruction with a 12-bit immediate. -/
def Obligations.RegisterImmediateWordsDecode : Prop :=
  ∀ e ∈ ([(0x00000013, 19, "addi"), (0x00002013, 20, "slti"), (0x00003013, 21, "sltiu"),
        (0x00004013, 22, "xori"), (0x00006013, 23, "ori"), (0x00007013, 24, "andi")] : List (Word × BitVec 6 × String)),
    WordDrives 0x0000707F e.1 e.2.1 2 2 (fun w => (w.extractLsb' 20 12).signExtend 32)
      (fun f abi v => e.2.2 ++ " " ++ regname f.rd abi ++ "," ++ regname f.rs1 abi ++ ",#$" ++ hex8 v)

/-- R172 to R174, the Decode line of slli, srli and srai: the discriminator is keyed and is not part of the value. -/
def Obligations.ImmediateShiftWordsDecode : Prop :=
  ∀ e ∈ ([(0x00001013, 25, "slli"), (0x00005013, 26, "srli"), (0x40005013, 27, "srai")] : List (Word × BitVec 6 × String)),
    WordDrives 0xFE00707F e.1 e.2.1 2 2 (fun w => (w.extractLsb' 20 5).setWidth 32)
      (fun f abi v => e.2.2 ++ " " ++ regname f.rd abi ++ "," ++ regname f.rs1 abi ++ ",#$" ++ hex8 v)

/-- R186 to R190, the Decode line of each load. -/
def Obligations.LoadWordsDecode : Prop :=
  ∀ e ∈ ([(0x00000003, 28, "lb"), (0x00001003, 29, "lh"), (0x00002003, 30, "lw"),
        (0x00004003, 31, "lbu"), (0x00005003, 32, "lhu")] : List (Word × BitVec 6 × String)),
    WordDrives 0x0000707F e.1 e.2.1 2 3 (fun w => (w.extractLsb' 20 12).signExtend 32)
      (fun f abi v => e.2.2 ++ " " ++ regname f.rd abi ++ ",$" ++ hex8 v ++ "(" ++ regname f.rs1 abi ++ ")")

/-- R196 to R198, the Decode line of each store: the offset is a concatenation, never a sum. -/
def Obligations.StoreWordsDecode : Prop :=
  ∀ e ∈ ([(0x00000023, 33, "sb"), (0x00001023, 34, "sh"), (0x00002023, 35, "sw")] : List (Word × BitVec 6 × String)),
    WordDrives 0x0000707F e.1 e.2.1 3 4 (fun w => (w.extractLsb' 25 7 ++ w.extractLsb' 7 5).signExtend 32)
      (fun f abi v => e.2.2 ++ " " ++ regname f.rs2 abi ++ ",$" ++ hex8 v ++ "(" ++ regname f.rs1 abi ++ ")")

/-- R206 to R211, the Decode line of each branch. -/
def Obligations.BranchWordsDecode : Prop :=
  ∀ e ∈ ([(0x00000063, 36, "beq"), (0x00001063, 37, "bne"), (0x00004063, 38, "blt"),
        (0x00005063, 39, "bge"), (0x00006063, 40, "bltu"), (0x00007063, 41, "bgeu")] : List (Word × BitVec 6 × String)),
    WordDrives 0x0000707F e.1 e.2.1 4 5 (fun w =>
        (w.extractLsb' 31 1 ++ w.extractLsb' 7 1 ++ w.extractLsb' 25 6 ++ w.extractLsb' 8 4 ++ 0#1).signExtend 32)
      (fun f abi v => e.2.2 ++ " " ++ regname f.rs1 abi ++ "," ++ regname f.rs2 abi ++ ",*+$" ++ hex8 v)

/-- R221 and R222, the Decode lines of jal and jalr: the destination of jal is `rd`. -/
def Obligations.JumpWordsDecode : Prop :=
  WordDrives 0x0000007F 0x0000006F 42 6 6
      (fun w => (w.extractLsb' 31 1 ++ w.extractLsb' 12 8 ++ w.extractLsb' 20 1 ++ w.extractLsb' 21 10 ++ 0#1).signExtend 32)
      (fun f abi v => "jal " ++ regname f.rd abi ++ ",*+$" ++ hex8 v) ∧
    WordDrives 0x0000707F 0x00000067 43 2 7 (fun w => (w.extractLsb' 20 12).signExtend 32)
      (fun f abi v => "jalr " ++ regname f.rd abi ++ ",$" ++ hex8 v ++ "(" ++ regname f.rs1 abi ++ ")")

/-- R231 and R232, the Decode lines of lui and auipc: the immediate is the placed pattern and is added to nothing. -/
def Obligations.UpperImmediateWordsDecode : Prop :=
  ∀ e ∈ ([(0x00000037, 44, "lui"), (0x00000017, 45, "auipc")] : List (Word × BitVec 6 × String)),
    WordDrives 0x0000007F e.1 e.2.1 5 8 (fun w => w.extractLsb' 12 20 ++ 0#12)
      (fun f abi v => e.2.2 ++ " " ++ regname f.rd abi ++ ",#$" ++ hex8 v)

/-- R241 and R242, the Decode lines of ecall and ebreak: `rd` and `rs1` may hold any value and are not rendered. -/
def Obligations.SystemWordsDecode : Prop :=
  ∀ e ∈ ([(0x00000073, 46, "ecall"), (0x00100073, 47, "ebreak")] : List (Word × BitVec 6 × String)),
    WordDrives 0xFFF0707F e.1 e.2.1 2 9 (fun w => (w.extractLsb' 20 12).signExtend 32) (fun _ _ _ => e.2.2)

/-- R251 to R261, the Decode line of each atomic. The match of amoor.w follows AMOOR_FUNCT5. -/
def Obligations.AtomicWordsDecode : Prop :=
  WordDrives 0xF800707F 0x1000202F 48 1 10 (fun _ => 0)
      (fun f abi _ => "lr.w " ++ regname f.rd abi ++ ",(" ++ regname f.rs1 abi ++ ")") ∧
    (∀ e ∈ ([(0x1800202F, 49, "sc.w"), (0x0800202F, 50, "amoswap.w"), (0x0000202F, 51, "amoadd.w"),
        (0x2000202F, 52, "amoxor.w"), (0x6000202F, 53, "amoand.w"), (0x8000202F, 55, "amomin.w"),
        (0xA000202F, 56, "amomax.w"), (0xC000202F, 57, "amominu.w"), (0xE000202F, 58, "amomaxu.w")] : List (Word × BitVec 6 × String)),
      WordDrives 0xF800707F e.1 e.2.1 1 11 (fun _ => 0)
        (fun f abi _ => e.2.2 ++ " " ++ regname f.rd abi ++ "," ++ regname f.rs2 abi ++ ",(" ++ regname f.rs1 abi ++ ")")) ∧
    ∀ (par : Params) (inp : Inputs),
      (par.amoorFunct5 = .standard ∧ inp.insn &&& 0xF800707F = 0x4000202F ∨
        par.amoorFunct5 = .literal ∧ inp.insn &&& 0xF800707F = 0x5000202F) →
      block par inp = recognised inp 54 1 11 0
        ("amoor.w " ++ regname (extractFields inp.insn).rd inp.abi ++ "," ++ regname (extractFields inp.insn).rs2 inp.abi ++
          ",(" ++ regname (extractFields inp.insn).rs1 inp.abi ++ ")")

/-- R130, R150: the eighteen register-register instructions answer a next state from every state, with their record and nothing else changed. -/
def Obligations.RegisterFormsComplete : Prop :=
  ∀ e ∈ ([(Instr.add, 1, "add"), (Instr.sub, 2, "sub"), (Instr.sll, 3, "sll"), (Instr.slt, 4, "slt"),
        (Instr.sltu, 5, "sltu"), (Instr.xor, 6, "xor"), (Instr.srl, 7, "srl"), (Instr.sra, 8, "sra"),
        (Instr.or, 9, "or"), (Instr.and, 10, "and"), (Instr.mul, 11, "mul"), (Instr.mulh, 12, "mulh"),
        (Instr.mulhsu, 13, "mulhsu"), (Instr.mulhu, 14, "mulhu"), (Instr.div, 15, "div"), (Instr.divu, 16, "divu"),
        (Instr.rem, 17, "rem"), (Instr.remu, 18, "remu")] : List ((Reg → Reg → Reg → Instr) × BitVec 6 × String)),
    ∀ (rd rs1 rs2 : Reg) (s : State),
      Answers (e.1 rd rs1 rs2) s (recognised s.inp e.2.1 1 1 0
        (e.2.2 ++ " " ++ regname rd s.inp.abi ++ "," ++ regname rs1 s.inp.abi ++ "," ++ regname rs2 s.inp.abi))

/-- R165: the nine register-immediate instructions answer a next state from every state, with their record and nothing else changed. -/
def Obligations.RegisterImmediateFormsComplete : Prop :=
  ∀ e ∈ ([(Instr.addi, 19, "addi"), (Instr.slti, 20, "slti"), (Instr.sltiu, 21, "sltiu"), (Instr.xori, 22, "xori"),
        (Instr.ori, 23, "ori"), (Instr.andi, 24, "andi"), (Instr.slli, 25, "slli"), (Instr.srli, 26, "srli"),
        (Instr.srai, 27, "srai")] : List ((Reg → Reg → Word → Instr) × BitVec 6 × String)),
    ∀ (rd rs1 : Reg) (imm : Word) (s : State),
      Answers (e.1 rd rs1 imm) s (recognised s.inp e.2.1 2 2 imm
        (e.2.2 ++ " " ++ regname rd s.inp.abi ++ "," ++ regname rs1 s.inp.abi ++ ",#$" ++ hex8 imm))

/-- R185, R59: the loads answer a next state from every state, with their record and nothing else changed. -/
def Obligations.LoadFormsComplete : Prop :=
  ∀ e ∈ ([(Instr.lb, 28, "lb"), (Instr.lh, 29, "lh"), (Instr.lw, 30, "lw"), (Instr.lbu, 31, "lbu"),
        (Instr.lhu, 32, "lhu")] : List ((Reg → Reg → Word → Instr) × BitVec 6 × String)),
    ∀ (rd rs1 : Reg) (imm : Word) (s : State),
      Answers (e.1 rd rs1 imm) s (recognised s.inp e.2.1 2 3 imm
        (e.2.2 ++ " " ++ regname rd s.inp.abi ++ ",$" ++ hex8 imm ++ "(" ++ regname rs1 s.inp.abi ++ ")"))

/-- R195, R59, R63: the stores answer a next state from every state; the byte source is unchanged with everything else. -/
def Obligations.StoreFormsComplete : Prop :=
  ∀ e ∈ ([(Instr.sb, 33, "sb"), (Instr.sh, 34, "sh"), (Instr.sw, 35, "sw")] : List ((Reg → Reg → Word → Instr) × BitVec 6 × String)),
    ∀ (rs2 rs1 : Reg) (imm : Word) (s : State),
      Answers (e.1 rs2 rs1 imm) s (recognised s.inp e.2.1 3 4 imm
        (e.2.2 ++ " " ++ regname rs2 s.inp.abi ++ ",$" ++ hex8 imm ++ "(" ++ regname rs1 s.inp.abi ++ ")"))

/-- R205, R34: the branches answer a next state from every state; the word index, and so the address, is unchanged. -/
def Obligations.BranchFormsComplete : Prop :=
  ∀ e ∈ ([(Instr.beq, 36, "beq"), (Instr.bne, 37, "bne"), (Instr.blt, 38, "blt"), (Instr.bge, 39, "bge"),
        (Instr.bltu, 40, "bltu"), (Instr.bgeu, 41, "bgeu")] : List ((Reg → Reg → Word → Instr) × BitVec 6 × String)),
    ∀ (rs1 rs2 : Reg) (imm : Word) (s : State),
      Answers (e.1 rs1 rs2 imm) s (recognised s.inp e.2.1 4 5 imm
        (e.2.2 ++ " " ++ regname rs1 s.inp.abi ++ "," ++ regname rs2 s.inp.abi ++ ",*+$" ++ hex8 imm))

/-- R220, R230: jal, jalr, lui and auipc answer a next state from every state; nothing is added to an address. -/
def Obligations.JumpAndUpperFormsComplete : Prop :=
  (∀ (rd rs1 : Reg) (imm : Word) (s : State),
      Answers (.jal rd imm) s (recognised s.inp 42 6 6 imm ("jal " ++ regname rd s.inp.abi ++ ",*+$" ++ hex8 imm)) ∧
      Answers (.jalr rd rs1 imm) s (recognised s.inp 43 2 7 imm
        ("jalr " ++ regname rd s.inp.abi ++ ",$" ++ hex8 imm ++ "(" ++ regname rs1 s.inp.abi ++ ")"))) ∧
    ∀ (rd : Reg) (imm : Word) (s : State),
      Answers (.lui rd imm) s (recognised s.inp 44 5 8 imm ("lui " ++ regname rd s.inp.abi ++ ",#$" ++ hex8 imm)) ∧
      Answers (.auipc rd imm) s (recognised s.inp 45 5 8 imm ("auipc " ++ regname rd s.inp.abi ++ ",#$" ++ hex8 imm))

/-- R240: ecall and ebreak answer a next state from every state, with the bare mnemonic; no trap is taken (R276). -/
def Obligations.SystemFormsComplete : Prop :=
  ∀ (rd rs1 : Reg) (s : State),
    Answers (.ecall rd rs1) s (recognised s.inp 46 2 9 0 "ecall") ∧
    Answers (.ebreak rd rs1) s (recognised s.inp 47 2 9 1 "ebreak")

/-- R250: the atomics answer a next state from every state; nothing is read, written or reserved. -/
def Obligations.AtomicFormsComplete : Prop :=
  (∀ (rd rs1 rs2 : Reg) (order : BitVec 2) (s : State),
      Answers (.lrW rd rs1 rs2 order) s (recognised s.inp 48 1 10 0
        ("lr.w " ++ regname rd s.inp.abi ++ ",(" ++ regname rs1 s.inp.abi ++ ")"))) ∧
    ∀ e ∈ ([(Instr.scW, 49, "sc.w"), (Instr.amoswapW, 50, "amoswap.w"), (Instr.amoaddW, 51, "amoadd.w"), (Instr.amoxorW, 52, "amoxor.w"),
        (Instr.amoandW, 53, "amoand.w"), (Instr.amoorW, 54, "amoor.w"), (Instr.amominW, 55, "amomin.w"), (Instr.amomaxW, 56, "amomax.w"),
        (Instr.amominuW, 57, "amominu.w"), (Instr.amomaxuW, 58, "amomaxu.w")] : List ((Reg → Reg → Reg → BitVec 2 → Instr) × BitVec 6 × String)),
      ∀ (rd rs2 rs1 : Reg) (order : BitVec 2) (s : State),
        Answers (e.1 rd rs2 rs1 order) s (recognised s.inp e.2.1 1 11 0
          (e.2.2 ++ " " ++ regname rd s.inp.abi ++ "," ++ regname rs2 s.inp.abi ++ ",(" ++ regname rs1 s.inp.abi ++ ")"))

/-- Every well-formed instruction is read back from its word, every operand and every unkeyed bit included (R70 to R102). The encoder is the model's own direction (R5): log entry 10. -/
def Obligations.DecodeOfEncodeIsTheInstruction : Prop :=
  ∀ (a : AmoorFunct5) (i : Instr), i.wf = true → decodeWord a (encode a i) = some i

/-- The other direction: a recognised word is the encoding of what the decoder reads from it, so decoding drops no bit, and every decoded immediate is one the encoding can hold (R80 to R86). The encoder is the model's own direction (R5): log entry 10. -/
def Obligations.EncodeOfDecodeIsTheWord : Prop :=
  ∀ (a : AmoorFunct5) (w : Word) (i : Instr), decodeWord a w = some i → encode a i = w ∧ i.wf = true

/-- R90 and R102: there are 58 rows and valid is 1 exactly when some row matches, never two rows, which any two rows' masks and matches rule out; the matching row fixes the mnemonic code, and without one the record is the unrecognised one. -/
def Obligations.DispatcherFollowsTheRows : Prop :=
  ∀ (par : Params) (inp : Inputs),
    ((block par inp).valid = true ↔ ∃ r ∈ opcodeRows par.amoorFunct5, inp.insn &&& r.mask = r.value) ∧
    (∀ r ∈ opcodeRows par.amoorFunct5, ∀ r' ∈ opcodeRows par.amoorFunct5,
      inp.insn &&& r.mask = r.value → inp.insn &&& r'.mask = r'.value → r = r') ∧
    (opcodeRows par.amoorFunct5).length = 58 ∧
    (∀ r ∈ opcodeRows par.amoorFunct5, ∀ r' ∈ opcodeRows par.amoorFunct5, r ≠ r' →
      (r.value ^^^ r'.value) &&& r.mask &&& r'.mask ≠ 0) ∧
    (∀ r ∈ opcodeRows par.amoorFunct5, inp.insn &&& r.mask = r.value → (block par inp).mnem = r.code) ∧
    ((∀ r ∈ opcodeRows par.amoorFunct5, inp.insn &&& r.mask ≠ r.value) →
      block par inp = ⟨extractFields inp.insn, false, 0, 0, 0, 0, par.unknownToken⟩)

/-- R271: the words outside the table, opcode by opcode. -/
def Obligations.UnrecognisedWordsSpelledOut : Prop :=
  ∀ (par : Params) (inp : Inputs), (block par inp).valid = false ↔
    let f := extractFields inp.insn
    let imm12 := inp.insn.extractLsb' 20 12
    f.opcode ∉ ([0b0110011, 0b0010011, 0b0000011, 0b0100011, 0b1100011, 0b1101111, 0b1100111, 0b0110111, 0b0010111,
        0b1110011, 0b0101111] : List (BitVec 7)) ∨
    (f.opcode = 0b0110011 ∧ ¬(f.funct7 = 0x00 ∨ f.funct7 = 0x01 ∨ f.funct7 = 0x20 ∧ (f.funct3 = 0 ∨ f.funct3 = 5))) ∨
    (f.opcode = 0b0010011 ∧ (f.funct3 = 1 ∧ f.funct7 ≠ 0 ∨ f.funct3 = 5 ∧ f.funct7 ≠ 0 ∧ f.funct7 ≠ 0b0100000)) ∨
    (f.opcode = 0b0000011 ∧ (f.funct3 = 3 ∨ f.funct3 = 6 ∨ f.funct3 = 7)) ∨
    (f.opcode = 0b0100011 ∧ 3 ≤ f.funct3.toNat) ∨
    (f.opcode = 0b1100011 ∧ (f.funct3 = 2 ∨ f.funct3 = 3)) ∨
    (f.opcode = 0b1100111 ∧ f.funct3 ≠ 0) ∨
    (f.opcode = 0b1110011 ∧ (f.funct3 ≠ 0 ∨ imm12 ≠ 0 ∧ imm12 ≠ 1)) ∨
    (f.opcode = 0b0101111 ∧ (f.funct3 ≠ 2 ∨ f.funct5 ≠ par.amoorFunct5.code ∧
        f.funct5 ∉ ([0x00, 0x01, 0x02, 0x03, 0x04, 0x0C, 0x10, 0x14, 0x18, 0x1C] : List (BitVec 5))))

/-- R52: word k is {b[4k+3], b[4k+2], b[4k+1], b[4k]}; R54: there are floor(n/4) of them. -/
def Obligations.WordsAreLittleEndian : Prop :=
  ∀ bytes : List Byte, (wordsOf bytes).length = bytes.length / 4 ∧
    ∀ k b0 b1 b2 b3, bytes[4 * k]? = some b0 → bytes[4 * k + 1]? = some b1 → bytes[4 * k + 2]? = some b2 →
      bytes[4 * k + 3]? = some b3 → (wordsOf bytes)[k]? = some (b3 ++ b2 ++ b1 ++ b0)

/-- Words written out from the encodings (R72 to R78), one or more of each format: a sanity check of the bit positions. -/
def Obligations.SampleWordsDecode : Prop :=
  decodeTableWord 32 0b0100000_00101_00110_000_00111_0110011 = some (.sub 7 6 5) ∧
    decodeTableWord 32 0b111111111100_00010_010_01010_0000011 = some (.lw 10 2 0xFFFFFFFC) ∧
    decodeTableWord 32 0b1111111_00001_00010_010_11100_0100011 = some (.sw 1 2 0xFFFFFFFC) ∧
    decodeTableWord 32 0b0_000000_01011_01010_110_0000_1_1100011 = some (.bltu 10 11 0x00000800) ∧
    decodeTableWord 32 0b0_0000000000_1_00000000_00001_1101111 = some (.jal 1 0x00000800) ∧
    decodeTableWord 32 0b10000000000000000000_00010_0110111 = some (.lui 2 0x80000000) ∧
    decodeTableWord 32 0b0100000_00100_01011_101_01010_0010011 = some (.srai 10 11 4) ∧
    decodeTableWord 32 0b01000_1_0_01100_01011_010_01010_0101111 = some (.amoorW 10 12 11 0b10) ∧
    decodeTableWord 32 0b111111111111_01010_000_00001_1100111 = some (.jalr 1 10 0xFFFFFFFF) ∧
    decodeTableWord 32 0b000000000010_00000_000_00000_1110011 = none

/-- R80: the sign of every signed immediate is insn[31], in every format that has an immediate. -/
def Obligations.ImmediateSignIsBit31 : Prop :=
  ∀ (par : Params) (inp : Inputs), (block par inp).valid = true → (block par inp).fmt ≠ 1 →
    (block par inp).imm.msb = inp.insn.getLsbD 31

/-- R81 to R87: the range of imm_o, format by format. -/
def Obligations.DrivenImmediatesAreInRange : Prop :=
  ∀ (par : Params) (inp : Inputs), (block par inp).valid = true →
    let o := block par inp
    (o.fmt = 1 → o.imm = 0) ∧
    (o.fmt = 2 ∨ o.fmt = 3 → -2048 ≤ o.imm.toInt ∧ o.imm.toInt ≤ 2047) ∧
    (25 ≤ o.mnem.toNat ∧ o.mnem.toNat ≤ 27 → o.imm.toNat ≤ 31) ∧
    (o.fmt = 4 → o.imm.toInt % 2 = 0 ∧ -4096 ≤ o.imm.toInt ∧ o.imm.toInt ≤ 4094) ∧
    (o.fmt = 5 → o.imm.toNat % 2 ^ 12 = 0) ∧
    (o.fmt = 6 → o.imm.toInt % 2 = 0 ∧ -1048576 ≤ o.imm.toInt ∧ o.imm.toInt ≤ 1048574)

/-- R24: the seven fields, as numbers, for every word, recognised or not. -/
def Obligations.FieldOutputsFollowTheWord : Prop :=
  ∀ (par : Params) (inp : Inputs),
    let f := (block par inp).fields
    let w := inp.insn.toNat
    f.opcode.toNat = w % 2 ^ 7 ∧ f.rd.toNat = w / 2 ^ 7 % 2 ^ 5 ∧ f.funct3.toNat = w / 2 ^ 12 % 2 ^ 3 ∧
    f.rs1.toNat = w / 2 ^ 15 % 2 ^ 5 ∧ f.rs2.toNat = w / 2 ^ 20 % 2 ^ 5 ∧ f.funct7.toNat = w / 2 ^ 25 % 2 ^ 7 ∧
    f.funct5.toNat = w / 2 ^ 27 % 2 ^ 5

/-- R29: no partial decode; the fields still follow the word. -/
def Obligations.UnrecognisedRecordIsFixed : Prop :=
  ∀ (par : Params) (inp : Inputs), (block par inp).valid = false →
    block par inp = ⟨extractFields inp.insn, false, 0, 0, 0, 0, par.unknownToken⟩

/-- R26: codes 1 to 58 with their spellings, 0 exactly for an unrecognised word. -/
def Obligations.MnemonicCodesAndSpellings : Prop :=
  ∀ (par : Params) (inp : Inputs),
    let o := block par inp
    (o.valid = false → o.mnem = 0) ∧
    (o.valid = true → 1 ≤ o.mnem.toNat ∧ o.mnem.toNat ≤ 58 ∧
      ∃ mn t, mnemonics[o.mnem.toNat - 1]? = some mn ∧ o.text = mn ++ t ∧ (t = "" ↔ o.form = 9) ∧
        (o.form ≠ 9 → ∃ ops, t = " " ++ ops))

/-- R79: the format of a recognised word by its opcode. -/
def Obligations.FormatFollowsTheOpcode : Prop :=
  ∀ (par : Params) (inp : Inputs), (block par inp).valid = true →
    ((block par inp).fields.opcode, (block par inp).fmt) ∈ ([(0x33, 1), (0x13, 2), (0x03, 2), (0x23, 3), (0x63, 4),
      (0x6F, 6), (0x67, 2), (0x37, 5), (0x17, 5), (0x73, 2), (0x2F, 1)] : List (BitVec 7 × BitVec 3))

/-- R27, R28: codes 7 of fmt_o and 12 to 15 of form_o are never driven, 0 is driven exactly for an unrecognised word, and each form belongs to one format. -/
def Obligations.FormAndFormatCodesAgree : Prop :=
  ∀ (par : Params) (inp : Inputs),
    let o := block par inp
    (o.valid = false ∧ o.fmt = 0 ∧ o.form = 0) ∨
    (o.valid = true ∧ (o.form, o.fmt) ∈ ([(1, 1), (2, 2), (3, 2), (4, 3), (5, 4), (6, 6), (7, 2), (8, 5), (9, 2), (10, 1),
      (11, 1)] : List (BitVec 4 × BitVec 3)))

/-- R33 over a whole step: the flag changes nothing but itself. -/
def Obligations.PseudoFlagIsUnobservable : Prop :=
  (∀ (par : Params) (insn : Word) (abi p q : Bool), block par ⟨insn, abi, p⟩ = block par ⟨insn, abi, q⟩) ∧
    ∀ (n : Nat) (s : State) (p : Bool), core.run n (withPseudo p s) = outcomeWithPseudo p (core.run n s)

/-- R295: only register names in the text depend on abi_i, and nothing on pseudo_i. -/
def Obligations.AbiFlagChangesOnlyTheNames : Prop :=
  ∀ (par : Params) (insn : Word),
    (∀ a b p q : Bool, { block par ⟨insn, a, p⟩ with text := "" } = { block par ⟨insn, b, q⟩ with text := "" }) ∧
    ∃ parts : List (String ⊕ Reg), ∀ a p : Bool, (block par ⟨insn, a, p⟩).text = spell a parts

/-- R116, with the default placeholder: the bound, and two texts that reach it. -/
def Obligations.TextIsAtMost26Characters : Prop :=
  (∀ (par : Params) (inp : Inputs), par.unknownToken = "???" →
      (block par inp).text.length ≤ 26 ∧ ∀ c ∈ (block par inp).text.toList, c.toNat < 128) ∧
    ∀ (par : Params) (p : Bool), (block par ⟨0xE000202F, true, p⟩).text = "amomaxu.w zero,zero,(zero)" ∧
      (block par ⟨0xFE006FE3, true, p⟩).text = "bltu zero,zero,*+$FFFFFFFE" ∧
      "amomaxu.w zero,zero,(zero)".length = 26 ∧ "bltu zero,zero,*+$FFFFFFFE".length = 26

/-- R105, R35: ordering bits of the atomics, rs2 of lr.w, rd and rs1 of ecall and ebreak. -/
def Obligations.UnkeyedBitsChangeNothingElse : Prop :=
  ∀ (par : Params) (inp : Inputs) (w : Word),
    let o := block par inp
    let o' := block par { inp with insn := w }
    (inp.insn &&& 0x7F = 0x2F → inp.insn &&& 0xF9FFFFFF = w &&& 0xF9FFFFFF → o' = { o with fields := o'.fields }) ∧
    (inp.insn &&& 0xF800707F = 0x1000202F → inp.insn &&& 0xF80FFFFF = w &&& 0xF80FFFFF →
      o.valid = true ∧ o' = { o with fields := o'.fields }) ∧
    (inp.insn &&& 0xFFF0707F = 0x00000073 ∨ inp.insn &&& 0xFFF0707F = 0x00100073 →
      inp.insn &&& 0xFFF0707F = w &&& 0xFFF0707F → o.valid = true ∧ o' = { o with fields := o'.fields }) ∧
    o.fields.funct7.getLsbD 1 = inp.insn.getLsbD 26 ∧ o.fields.funct7.getLsbD 0 = inp.insn.getLsbD 25

/-- R100: the funct5 table, with AMOOR_FUNCT5, and nothing else. -/
def Obligations.AtomicsAreKeyedByFunct5 : Prop :=
  ∀ (par : Params) (inp : Inputs), (extractFields inp.insn).opcode = 0b0101111 →
    let f := extractFields inp.insn
    let o := block par inp
    (o.valid = true ↔ f.funct3 = 2 ∧ (f.funct5 = par.amoorFunct5.code ∨
      f.funct5 ∈ ([0x00, 0x01, 0x02, 0x03, 0x04, 0x0C, 0x10, 0x14, 0x18, 0x1C] : List (BitVec 5)))) ∧
    (o.valid = true → (f.funct5, o.mnem) ∈
      ([(0x00, 51), (0x01, 50), (0x02, 48), (0x03, 49), (0x04, 52), (0x0C, 53), (par.amoorFunct5.code, 54), (0x10, 55),
        (0x14, 56), (0x18, 57), (0x1C, 58)] : List (BitVec 5 × BitVec 6))) ∧
    (par.amoorFunct5 = .standard → f.funct5 = 0x0A → o.valid = false) ∧
    (par.amoorFunct5 = .literal → f.funct5 = 0x08 → o.valid = false)

/-- R36 to R39: both namings, and no name is shared by two registers. -/
def Obligations.RegisterNames : Prop :=
  (∀ n : Reg, regname n false = "x" ++ dec n.toNat ∧
      ["zero", "ra", "sp", "gp", "tp", "t0", "t1", "t2", "fp", "s1", "a0", "a1", "a2", "a3", "a4", "a5",
        "a6", "a7", "s2", "s3", "s4", "s5", "s6", "s7", "s8", "s9", "s10", "s11", "t3", "t4", "t5",
        "t6"][n.toNat]? = some (regname n true)) ∧
    ∀ (m n : Reg) (abi : Bool), regname m abi = regname n abi → m = n

/-- R12: hex8 has eight upper-case digits that spell the pattern; dec is decimal without leading zeros. -/
def Obligations.NumbersAreSpelledExactly : Prop :=
  (∀ v : Word, (hex8 v).length = 8 ∧ (∀ c ∈ (hex8 v).toList, c ∈ "0123456789ABCDEF".toList) ∧
      digitsValue "0123456789ABCDEF" (hex8 v) = v.toNat) ∧
    dec 0 = "0" ∧
    ∀ n : Nat, (∀ c ∈ (dec n).toList, c ∈ "0123456789".toList) ∧ digitsValue "0123456789" (dec n) = n ∧
      (n ≠ 0 → (dec n).toList.head? ≠ some '0')

/-- T2 of 95_test_vectors.md and R110 to R114: the text gives back the word, up to the bits that are neither keyed nor rendered (R105). -/
def Obligations.TextDeterminesTheWord : Prop :=
  ∀ (par : Params) (inp inp' : Inputs), inp.abi = inp'.abi → (block par inp).valid = true → (block par inp').valid = true →
    (block par inp).text = (block par inp').text →
      (block par inp).mnem = (block par inp').mnem ∧ (block par inp).imm = (block par inp').imm ∧
      inp.insn &&& renderedBits (block par inp) = inp'.insn &&& renderedBits (block par inp)

/-- A step runs the instruction that the next four bytes decode to, on the state with the word on insn_i, and then emits the line (R55). -/
def Obligations.StepRunsTheDecodedInstruction : Prop :=
  ∀ (s : State) (w : Word) (rest : List Byte) (i : Instr), s.scan = .running → pendingBytes s = wordBytes w ++ rest →
    decodeWord s.par.amoorFunct5 w = some i → step s = emitAfter (exec i (presentWord w s))

/-- R55: what one step leaves for any word, recognised or not. -/
def Obligations.StepEmitsOneLinePerWord : Prop :=
  ∀ (s : State) (w : Word) (rest : List Byte), s.scan = .running → pendingBytes s = wordBytes w ++ rest →
    let inp : Inputs := ⟨w, s.inp.abi, s.inp.pseudo⟩
    step s = .next { s with
      inp := inp, out := block s.par inp, k := s.k + 1,
      lines := s.lines ++ [if s.par.suppressRaw = true then .bare (block s.par inp).text
        else .listed (s.par.baseAddress + BitVec.ofNat 32 (4 * s.k)) w (block s.par inp).text] }

/-- R273: the placeholder line is emitted, and the next word is at address + 4. -/
def Obligations.UnrecognisedWordNeverStopsTheScan : Prop :=
  ∀ (s : State) (w : Word) (rest : List Byte), s.scan = .running → pendingBytes s = wordBytes w ++ rest →
    decodeWord s.par.amoorFunct5 w = none →
    ∃ t, step s = .next t ∧ t.scan = .running ∧ t.out.text = s.par.unknownToken ∧ t.address = s.address + 4 ∧
      pendingBytes t = rest ∧ t.lines = s.lines ++ [makeLine s.par s.address w s.par.unknownToken]

/-- R54: fewer than four bytes left. That the end is a step of its own, and that it changes nothing else, the ports included, is the model's choice (log entries 17 and 21). -/
def Obligations.ScanEndsWithoutALine : Prop :=
  ∀ s : State, s.scan = .running → (pendingBytes s).length < 4 → s.source.failing = false →
    step s = .next { s with scan := .ended }

/-- R57, I11: reported, a nonzero status, no line added; which of the earlier lines came out is free. How the model holds the error and the report is its own (log entries 6, 7 and 19), as is that the ports keep the last word and its record (log entry 21). -/
def Obligations.InputErrorIsFatal : Prop :=
  ∀ s : State, s.scan = .running → (pendingBytes s).length < 4 → s.source.failing = true →
    ∃ m e, e ≠ 0 ∧
      step s = .next { s with lines := s.lines.take m, scan := .failed e, reported := true, free := s.free + 1 }

/-- R273, I8: a step never refuses, whatever the bytes; it faults exactly when the scan is over. The fault scanTerminated after the end (log entry 9), and the end as an answering step of its own (log entry 17), are the model's choice. -/
def Obligations.StepAnswersExactlyWhileRunning : Prop :=
  ∀ s : State, (s.scan = .running → ∃ t, step s = .next t) ∧ (s.scan ≠ .running → step s = .fault .scanTerminated)

/-- R293, D23: parameters, naming mode, pseudo flag and byte source never change in a step; the word index never falls. That a step keeps abi_i and pseudo_i, which R295 lets a driver change between words, is the model's reading (log entry 15). -/
def Obligations.StepKeepsTheConfiguration : Prop :=
  ∀ s t : State, step s = .next t →
    t.par = s.par ∧ t.inp.abi = s.inp.abi ∧ t.inp.pseudo = s.inp.pseudo ∧ t.source = s.source ∧ s.k ≤ t.k ∧ t.k ≤ s.k + 1

/-- R20, R50, R276: the frame of all 58 instructions. -/
def Obligations.InstructionsChangeOnlyTheOutputs : Prop :=
  ∀ (i : Instr) (s : State), ∃ o : Out, exec i s = .next { s with out := o } ∧ o.valid = true ∧
    o.fields = extractFields s.inp.insn

/-- R23: two scans at different places, with different pasts and different bytes to come, drive the same outputs for the same word. -/
def Obligations.OutputsDependOnTheWordAlone : Prop :=
  ∀ (s s' : State) (w : Word) (rest rest' : List Byte), s.scan = .running → s'.scan = .running →
    s.par = s'.par → s.inp.abi = s'.inp.abi →
    pendingBytes s = wordBytes w ++ rest → pendingBytes s' = wordBytes w ++ rest' →
    ∃ t t', step s = .next t ∧ step s' = .next t' ∧ t.out = t'.out

/-- R53: the address of word k, modulo 2^32, with any base. -/
def Obligations.AddressesAdvanceByFour : Prop :=
  ∀ (par : Params) (k : Nat), (wordAddress par k).toNat = (par.baseAddress.toNat + 4 * k) % 2 ^ 32 ∧
    wordAddress par (k + 1) = wordAddress par k + 4

/-- The headline invariant: outputs settled (R20), the lines exactly those of the words read (R55, R56), and an ended or failed scan as R54, R57 and R297 say. -/
def Obligations.StepKeepsTheInvariant : Prop :=
  ∀ s t : State, Inv s → step s = .next t → Inv t

/-- The invariant holds at reset. The word on insn_i there is the model's choice (log entry 2), and so are the running status and the empty lines (log entry 8) and that nothing is reported (log entry 19). -/
def Obligations.ResetMeetsTheInvariant : Prop :=
  Inv State.reset

/-- R100, I1, I4: the two values of AMOOR_FUNCT5, and a 32-bit base address; every other launch is refused by name. -/
def Obligations.LaunchRefusesExactlyWhatIsNotAllowed : Prop :=
  ∀ (a : Nat) (token : String) (base : Int) (abi pseudo raw : Bool) (src : Source),
    ((∃ s, launch a token base abi pseudo raw src = .next s) ↔ (a = 0x08 ∨ a = 0x0A) ∧ 0 ≤ base ∧ base < 2 ^ 32) ∧
    (¬((a = 0x08 ∨ a = 0x0A) ∧ 0 ≤ base ∧ base < 2 ^ 32) → ∃ r, launch a token base abi pseudo raw src = .refused r ∧
      (r = .amoorFunct5NotAllowed a ∧ a ≠ 0x08 ∧ a ≠ 0x0A ∨ r = .baseAddressOutOfRange base ∧ (base < 0 ∨ 2 ^ 32 ≤ base)))

/-- R291: the word index, the address and the options at the start of a scan, and the invariant. That no line is out, the scan is running and nothing is reported is the model's choice, R291 lists none of them (log entries 8 and 19). -/
def Obligations.LaunchStartsTheScan : Prop :=
  ∀ (a : Nat) (token : String) (base : Int) (abi pseudo raw : Bool) (src : Source) (s : State),
    launch a token base abi pseudo raw src = .next s →
    AtStart s ∧ s.source = src ∧ s.inp.abi = abi ∧ s.inp.pseudo = pseudo ∧ s.par.suppressRaw = raw ∧
      s.par.unknownToken = token ∧ s.par.amoorFunct5.code.toNat = a ∧ (s.address.toNat : Int) = base ∧ Inv s

/-- R291: the initial values of the environment, with every option at its default. -/
def Obligations.ResetHasTheInitialValues : Prop :=
  State.reset.k = 0 ∧ State.reset.address = State.reset.par.baseAddress ∧ State.reset.par.baseAddress = 0 ∧
    State.reset.inp.abi = false ∧ State.reset.inp.pseudo = false ∧ State.reset.par.suppressRaw = false

/-- The reset state is the launch with every default and no bytes; that both have the word 0 on insn_i and a source that does not fail is the model's choice (log entries 2, 7 and 8). -/
def Obligations.ResetIsTheDefaultLaunch : Prop :=
  launch 0x08 "???" 0 false false false ⟨[], false⟩ = .next State.reset

/-- R297: the whole run, for every byte source, good or failing. That the end is a step of its own, and that a step after it is the fault scanTerminated, is the model's choice (log entries 17 and 9). -/
def Obligations.WholeScanListsEveryWordAndEnds : Prop :=
  ∀ s : State, AtStart s → ∃ t, core.run (s.source.bytes.length / 4 + 1) s = .next t ∧
    step t = .fault .scanTerminated ∧ (fullListing s).length = s.source.bytes.length / 4 ∧
    (s.source.failing = false → t.scan = .ended ∧ t.lines = fullListing s ∧ t.reported = false) ∧
    (s.source.failing = true → (∃ e, e ≠ 0 ∧ t.scan = .failed e) ∧ t.lines <+: fullListing s ∧ t.reported = true)

/-- R55, R56, D19: line k of the listing is the line of word k, its characters are LINE_FORMAT's, for every LINE_FORMAT, and a whole scan writes them out. That a launch comes from outside and the end is a step is the model's choice (log entries 8 and 17). -/
def Obligations.ListingLineOfEachWord : Prop :=
  (∀ (par : Params) (abi pseudo : Bool) (bytes : List Byte) (k : Nat),
    (listing par abi pseudo bytes)[k]? = ((wordsOf bytes)[k]?).map fun w =>
      if par.suppressRaw = true then Line.bare (block par ⟨w, abi, pseudo⟩).text
      else Line.listed (par.baseAddress + BitVec.ofNat 32 (4 * k)) w (block par ⟨w, abi, pseudo⟩).text) ∧
    (∀ (lineFormat : LineFormat) (par : Params) (abi pseudo : Bool) (bytes : List Byte) (k : Nat),
      ((listing par abi pseudo bytes).map (lineText lineFormat))[k]? = ((wordsOf bytes)[k]?).map fun w =>
        if par.suppressRaw = true then (block par ⟨w, abi, pseudo⟩).text
        else lineFormat (par.baseAddress + BitVec.ofNat 32 (4 * k)) w (block par ⟨w, abi, pseudo⟩).text) ∧
    ∀ (lineFormat : LineFormat) (a : Nat) (token : String) (base : Int) (abi pseudo raw : Bool) (bytes : List Byte)
      (s : State), launch a token base abi pseudo raw ⟨bytes, false⟩ = .next s →
      disassemble lineFormat a token base abi pseudo raw ⟨bytes, false⟩ =
        .next ((listing s.par abi pseudo bytes).map (lineText lineFormat))

/-- R56, R298, I13: words decoded in any order and put back by word index, the model's reading of address order (log entry 16). -/
def Obligations.AnyDecodingOrderGivesTheListing : Prop :=
  ∀ (par : Params) (abi pseudo : Bool) (bytes : List Byte) (order : List Nat),
    order.Perm (List.range (bytes.length / 4)) →
    reassemble (decodeInOrder par abi pseudo bytes order) = listing par abi pseudo bytes

/-- How the host places a word (log entry 8): the very next step decodes exactly that word. -/
def Obligations.FetchWordRunsNext : Prop :=
  ∀ (s : State) (w : Word),
    step (s.withFetchWord 32 w.toNat) =
      .next (emitLine (redrive { s.inp with insn := w } (s.withFetchWord 32 w.toNat)))
end

