-- ==== Sys2Proof/Laws/Decode.lean ====
section
/-! SUPPORT. Bits of the immediates, of placed fields and of encoded words; immediates an encoding holds; bytes of a word. -/

namespace Sys2Proof

/-! ### Placed fields -/

@[simp] theorem getLsbD_place {n : Nat} (x : BitVec n) (lo i : Nat) :
    (place x lo).getLsbD i = (decide (i < 32) && (decide (lo ≤ i) && x.getLsbD (i - lo))) := by
  simp only [place, BitVec.getLsbD_shiftLeft, BitVec.getLsbD_setWidth]
  by_cases h : i < 32
  · have : i - lo < 32 := by omega
    by_cases h' : lo ≤ i <;> simp [h, h', this]
  · simp [h]

@[simp] theorem getElem_place {n : Nat} (x : BitVec n) (lo i : Nat) (h : i < 32) :
    (place x lo)[i] = (decide (lo ≤ i) && x.getLsbD (i - lo)) := by
  rw [← BitVec.getLsbD_eq_getElem, getLsbD_place]
  simp [h]

/-! ### Bits of the immediates (R81 to R86) -/

theorem getLsbD_immI (w : Word) (j : Nat) (h : j < 32) :
    (immI w).getLsbD j = if j < 12 then w.getLsbD (20 + j) else w.getLsbD 31 := by
  simp only [immI, BitVec.getLsbD_signExtend, BitVec.msb_eq_getLsbD_last, BitVec.getLsbD_extractLsb']
  split <;> simp_all

theorem getLsbD_immS (w : Word) (j : Nat) (h : j < 32) :
    (immS w).getLsbD j = if j < 5 then w.getLsbD (7 + j) else if j < 12 then w.getLsbD (20 + j) else w.getLsbD 31 := by
  interval_cases j <;> simp only [immS, BitVec.getLsbD_signExtend, BitVec.msb_eq_getLsbD_last, BitVec.getLsbD_append,
    BitVec.getLsbD_extractLsb'] <;> rfl

theorem getLsbD_immB (w : Word) (j : Nat) (h : j < 32) :
    (immB w).getLsbD j = if j = 0 then false else if j < 5 then w.getLsbD (7 + j) else if j < 11 then w.getLsbD (20 + j)
      else if j = 11 then w.getLsbD 7 else w.getLsbD 31 := by
  interval_cases j <;> simp only [immB, BitVec.getLsbD_signExtend, BitVec.msb_eq_getLsbD_last, BitVec.getLsbD_append,
    BitVec.getLsbD_extractLsb'] <;> rfl

theorem getLsbD_immU (w : Word) (j : Nat) (h : j < 32) :
    (immU w).getLsbD j = if j < 12 then false else w.getLsbD j := by
  interval_cases j <;> simp only [immU, BitVec.getLsbD_append, BitVec.getLsbD_extractLsb'] <;> rfl

theorem getLsbD_immJ (w : Word) (j : Nat) (h : j < 32) :
    (immJ w).getLsbD j = if j = 0 then false else if j < 11 then w.getLsbD (20 + j) else if j = 11 then w.getLsbD 20
      else if j < 20 then w.getLsbD j else w.getLsbD 31 := by
  interval_cases j <;> simp only [immJ, BitVec.getLsbD_signExtend, BitVec.msb_eq_getLsbD_last, BitVec.getLsbD_append,
    BitVec.getLsbD_extractLsb'] <;> rfl

theorem getLsbD_immSH (w : Word) (j : Nat) (h : j < 32) :
    (immSH w).getLsbD j = if j < 5 then w.getLsbD (20 + j) else false := by
  simp only [immSH, BitVec.getLsbD_setWidth, BitVec.getLsbD_extractLsb']
  split <;> simp_all

/-! ### Immediates an encoding holds -/

/-- A value in the signed range of `n` bits is the extension of its low `n` bits. -/
theorem signExtend_low {imm : Word} {n : Nat} (h0 : 0 < n) (hn : n ≤ 32) (hl : -2 ^ (n - 1) ≤ imm.toInt)
    (hu : imm.toInt < 2 ^ (n - 1)) : (imm.extractLsb' 0 n).signExtend 32 = imm := by
  apply BitVec.eq_of_toInt_eq
  obtain ⟨m, rfl⟩ : ∃ m, n = m + 1 := ⟨n - 1, by omega⟩
  have hd : 2 ^ (m + 1) ∣ 2 ^ 32 := Nat.pow_dvd_pow 2 hn
  have h1 : (imm.extractLsb' 0 (m + 1)).toInt = imm.toInt.bmod (2 ^ (m + 1)) := by
    rw [BitVec.toInt_eq_toNat_bmod imm, Int.bmod_bmod_of_dvd hd, BitVec.toInt_extractLsb', Nat.shiftRight_zero]
  rw [BitVec.toInt_signExtend, Nat.min_eq_right hn, h1, Int.bmod_bmod]
  simp only [Nat.add_sub_cancel] at hl hu
  apply Int.bmod_eq_of_le <;> push_cast <;> rw [pow_succ] <;> omega

/-- The bits above the sign bit of a value in the signed range of `n` bits are copies of it. -/
theorem getLsbD_of_range {imm : Word} {n : Nat} (h0 : 0 < n) (hn : n ≤ 32) (hl : -2 ^ (n - 1) ≤ imm.toInt)
    (hu : imm.toInt < 2 ^ (n - 1)) (j : Nat) (hj : n ≤ j) (hj' : j < 32) : imm.getLsbD j = imm.getLsbD (n - 1) := by
  have h := congrArg (·.getLsbD j) (signExtend_low h0 hn hl hu)
  simp only [BitVec.getLsbD_signExtend, BitVec.msb_eq_getLsbD_last, BitVec.getLsbD_extractLsb'] at h
  rw [← h]
  simp [hj', Nat.not_lt.mpr hj, show n - 1 < n by omega]

theorem fitsI_bits {imm : Word} (h : fitsI imm = true) (j : Nat) (hj : 12 ≤ j) (hj' : j < 32) :
    imm.getLsbD j = imm.getLsbD 11 := by
  simp only [fitsI, Bool.and_eq_true, decide_eq_true_eq] at h
  exact getLsbD_of_range (n := 12) (by omega) (by omega) (by omega) (by omega) j hj hj'

theorem fitsB_bits {imm : Word} (h : fitsB imm = true) (j : Nat) (hj : 13 ≤ j) (hj' : j < 32) :
    imm.getLsbD j = imm.getLsbD 12 := by
  simp only [fitsB, Bool.and_eq_true, decide_eq_true_eq] at h
  exact getLsbD_of_range (n := 13) (by omega) (by omega) (by omega) (by omega) j hj hj'

theorem fitsJ_bits {imm : Word} (h : fitsJ imm = true) (j : Nat) (hj : 21 ≤ j) (hj' : j < 32) :
    imm.getLsbD j = imm.getLsbD 20 := by
  simp only [fitsJ, Bool.and_eq_true, decide_eq_true_eq] at h
  exact getLsbD_of_range (n := 21) (by omega) (by omega) (by omega) (by omega) j hj hj'

theorem fitsB_even {imm : Word} (h : fitsB imm = true) : imm.getLsbD 0 = false := by
  simp only [fitsB, Bool.and_eq_true, Bool.not_eq_true'] at h
  exact h.1

theorem fitsJ_even {imm : Word} (h : fitsJ imm = true) : imm.getLsbD 0 = false := by
  simp only [fitsJ, Bool.and_eq_true, Bool.not_eq_true'] at h
  exact h.1

theorem fitsU_bits {imm : Word} (h : fitsU imm = true) (j : Nat) (hj : j < 12) : imm.getLsbD j = false := by
  have h' := congrArg (·.getLsbD j) (beq_iff_eq.mp h)
  simpa [hj] using h'

theorem fitsShift_bits {imm : Word} (h : fitsShift imm = true) (j : Nat) (hj : 5 ≤ j) : imm.getLsbD j = false := by
  simp only [fitsShift, decide_eq_true_eq] at h
  exact Nat.testBit_lt_two_pow (lt_of_lt_of_le h (Nat.pow_le_pow_right (by omega) hj : 2 ^ 5 ≤ 2 ^ j))

/-! ### Bytes of a word (R52) -/

@[simp] theorem assembleWord_wordBytes (w : Word) :
    assembleWord (w.extractLsb' 0 8) (w.extractLsb' 8 8) (w.extractLsb' 16 8) (w.extractLsb' 24 8) = w := by
  apply BitVec.eq_of_getLsbD_eq
  intro j hj
  interval_cases j <;> simp only [assembleWord, BitVec.getLsbD_append, BitVec.getLsbD_extractLsb'] <;> rfl

@[simp] theorem length_wordBytes (w : Word) : (wordBytes w).length = 4 := rfl

/-- Decoding a stream that begins with the bytes of a word looks at that word alone. -/
theorem decode_wordBytes (a : AmoorFunct5) (w : Word) (rest : List Byte) :
    decode a (wordBytes w ++ rest) =
      match decodeWord a w with
      | some i => .instr i w rest
      | none   => .unrecognised w rest := by
  cases h : decodeWord a w <;> simp [wordBytes, decode, h]

/-- Only fewer than four bytes hold no word (R54). -/
theorem decode_eq_noWord (a : AmoorFunct5) (bytes : List Byte) : decode a bytes = .noWord ↔ bytes.length < 4 := by
  match bytes with
  | [] | [_] | [_, _] | [_, _, _] => simp [decode]
  | b0 :: b1 :: b2 :: b3 :: rest =>
    simp only [decode, List.length_cons]
    cases decodeWord a (assembleWord b0 b1 b2 b3) <;> simp

end Sys2Proof
end

