-- ==== Sys2Proof/Laws/State.lean ====
section
/-! SUPPORT. One lemma per field of State per update. -/

namespace Sys2Proof.Machine

@[simp] theorem presentWord_par (w : Word) (s : State) : (presentWord w s).par = s.par := rfl
@[simp] theorem presentWord_inp (w : Word) (s : State) : (presentWord w s).inp = { s.inp with insn := w } := rfl
@[simp] theorem presentWord_out (w : Word) (s : State) : (presentWord w s).out = s.out := rfl
@[simp] theorem presentWord_source (w : Word) (s : State) : (presentWord w s).source = s.source := rfl
@[simp] theorem presentWord_k (w : Word) (s : State) : (presentWord w s).k = s.k := rfl
@[simp] theorem presentWord_lines (w : Word) (s : State) : (presentWord w s).lines = s.lines := rfl
@[simp] theorem presentWord_scan (w : Word) (s : State) : (presentWord w s).scan = s.scan := rfl
@[simp] theorem presentWord_reported (w : Word) (s : State) : (presentWord w s).reported = s.reported := rfl
@[simp] theorem presentWord_free (w : Word) (s : State) : (presentWord w s).free = s.free := rfl

@[simp] theorem emitLine_par (s : State) : (emitLine s).par = s.par := rfl
@[simp] theorem emitLine_inp (s : State) : (emitLine s).inp = s.inp := rfl
@[simp] theorem emitLine_out (s : State) : (emitLine s).out = s.out := rfl
@[simp] theorem emitLine_source (s : State) : (emitLine s).source = s.source := rfl
@[simp] theorem emitLine_k (s : State) : (emitLine s).k = s.k + 1 := rfl
@[simp] theorem emitLine_lines (s : State) : (emitLine s).lines = s.lines ++ [makeLine s.par s.address s.inp.insn s.out.text] := rfl
@[simp] theorem emitLine_scan (s : State) : (emitLine s).scan = s.scan := rfl
@[simp] theorem emitLine_reported (s : State) : (emitLine s).reported = s.reported := rfl
@[simp] theorem emitLine_free (s : State) : (emitLine s).free = s.free := rfl

@[simp] theorem endScan_par (s : State) : (endScan s).par = s.par := rfl
@[simp] theorem endScan_inp (s : State) : (endScan s).inp = s.inp := rfl
@[simp] theorem endScan_out (s : State) : (endScan s).out = s.out := rfl
@[simp] theorem endScan_source (s : State) : (endScan s).source = s.source := rfl
@[simp] theorem endScan_k (s : State) : (endScan s).k = s.k := rfl
@[simp] theorem endScan_lines (s : State) : (endScan s).lines = s.lines := rfl
@[simp] theorem endScan_scan (s : State) : (endScan s).scan = .ended := rfl
@[simp] theorem endScan_reported (s : State) : (endScan s).reported = s.reported := rfl
@[simp] theorem endScan_free (s : State) : (endScan s).free = s.free := rfl

@[simp] theorem failScan_par (s : State) : (failScan s).par = s.par := rfl
@[simp] theorem failScan_inp (s : State) : (failScan s).inp = s.inp := rfl
@[simp] theorem failScan_out (s : State) : (failScan s).out = s.out := rfl
@[simp] theorem failScan_source (s : State) : (failScan s).source = s.source := rfl
@[simp] theorem failScan_k (s : State) : (failScan s).k = s.k := rfl
@[simp] theorem failScan_lines (s : State) : (failScan s).lines = s.lines.take (Config.freePrefix s.free) := rfl
@[simp] theorem failScan_scan (s : State) : (failScan s).scan = .failed (Config.freeExitStatus s.free + 1) := rfl
@[simp] theorem failScan_reported (s : State) : (failScan s).reported = true := rfl
@[simp] theorem failScan_free (s : State) : (failScan s).free = s.free + 1 := rfl

@[simp] theorem redrive_par (inp : Inputs) (s : State) : (redrive inp s).par = s.par := rfl
@[simp] theorem redrive_inp (inp : Inputs) (s : State) : (redrive inp s).inp = inp := rfl
@[simp] theorem redrive_out (inp : Inputs) (s : State) : (redrive inp s).out = block s.par inp := rfl
@[simp] theorem redrive_source (inp : Inputs) (s : State) : (redrive inp s).source = s.source := rfl
@[simp] theorem redrive_k (inp : Inputs) (s : State) : (redrive inp s).k = s.k := rfl
@[simp] theorem redrive_lines (inp : Inputs) (s : State) : (redrive inp s).lines = s.lines := rfl
@[simp] theorem redrive_scan (inp : Inputs) (s : State) : (redrive inp s).scan = s.scan := rfl
@[simp] theorem redrive_reported (inp : Inputs) (s : State) : (redrive inp s).reported = s.reported := rfl
@[simp] theorem redrive_free (inp : Inputs) (s : State) : (redrive inp s).free = s.free := rfl

@[simp] theorem withFetchWord_par (s : State) (nbits w : Nat) : (s.withFetchWord nbits w).par = s.par := rfl
@[simp] theorem withFetchWord_inp (s : State) (nbits w : Nat) : (s.withFetchWord nbits w).inp = s.inp := rfl
@[simp] theorem withFetchWord_out (s : State) (nbits w : Nat) : (s.withFetchWord nbits w).out = s.out := rfl
@[simp] theorem withFetchWord_source (s : State) (nbits w : Nat) : (s.withFetchWord nbits w).source = ⟨placeWord s.source.bytes (4 * s.k) (tableWord nbits w), s.source.failing⟩ := rfl
@[simp] theorem withFetchWord_k (s : State) (nbits w : Nat) : (s.withFetchWord nbits w).k = s.k := rfl
@[simp] theorem withFetchWord_lines (s : State) (nbits w : Nat) : (s.withFetchWord nbits w).lines = s.lines := rfl
@[simp] theorem withFetchWord_scan (s : State) (nbits w : Nat) : (s.withFetchWord nbits w).scan = .running := rfl
@[simp] theorem withFetchWord_reported (s : State) (nbits w : Nat) : (s.withFetchWord nbits w).reported = s.reported := rfl
@[simp] theorem withFetchWord_free (s : State) (nbits w : Nat) : (s.withFetchWord nbits w).free = s.free := rfl

end Sys2Proof.Machine
end

