-- ==== Sys2Proof/Laws/Ops.lean ====
section
/-! SUPPORT. One lemma per shared operation: everything it can do, cited instead of unfolding it. -/

namespace Sys2Proof.Machine

/-! ### Running an instruction -/

@[simp] theorem driveOut_eq (o : Out) (s : State) : driveOut o s = .next { s with out := o } := rfl

@[simp] theorem driveUnrecognised_eq (s : State) :
    driveUnrecognised s = .next { s with out := unrecognisedOut s.par s.inp } := rfl

@[simp] theorem emitAfter_next (s : State) : emitAfter (.next s) = .next (emitLine s) := rfl

/-- Every instruction drives its record and does nothing else (R20, R270). -/
theorem exec_eq (i : Instr) (s : State) : exec i s = .next { s with out := recordOf i s.inp } := by
  cases i <;> rfl

/-! ### The record -/

@[simp] theorem recordOf_fields (i : Instr) (inp : Inputs) : (recordOf i inp).fields = extractFields inp.insn := by
  cases i <;> rfl

@[simp] theorem recordOf_valid (i : Instr) (inp : Inputs) : (recordOf i inp).valid = true := by
  cases i <;> rfl

theorem block_of_some {par : Params} {inp : Inputs} {i : Instr} (h : decodeWord par.amoorFunct5 inp.insn = some i) :
    block par inp = recordOf i inp := by
  simp [block, h]

theorem block_of_none {par : Params} {inp : Inputs} (h : decodeWord par.amoorFunct5 inp.insn = none) :
    block par inp = unrecognisedOut par inp := by
  simp [block, h]

/-- `valid_o` says whether the dispatcher found a row. -/
theorem block_valid (par : Params) (inp : Inputs) :
    (block par inp).valid = (decodeWord par.amoorFunct5 inp.insn).isSome := by
  cases h : decodeWord par.amoorFunct5 inp.insn with
  | some i => simp [block_of_some h]
  | none => simp [block_of_none h, unrecognisedOut]

/-! ### What a step can do -/

/-- A stream of four bytes or more begins with the bytes of a word. -/
theorem exists_wordBytes_append {bytes : List Byte} (h : 4 ≤ bytes.length) :
    ∃ w rest, bytes = wordBytes w ++ rest := by
  match bytes, h with
  | b0 :: b1 :: b2 :: b3 :: rest, _ =>
    refine ⟨assembleWord b0 b1 b2 b3, rest, ?_⟩
    have e0 : (assembleWord b0 b1 b2 b3).extractLsb' 0 8 = b0 := by
      ext j hj; simp only [assembleWord, BitVec.getElem_extractLsb', BitVec.getLsbD_append]; interval_cases j <;> rfl
    have e1 : (assembleWord b0 b1 b2 b3).extractLsb' 8 8 = b1 := by
      ext j hj; simp only [assembleWord, BitVec.getElem_extractLsb', BitVec.getLsbD_append]; interval_cases j <;> rfl
    have e2 : (assembleWord b0 b1 b2 b3).extractLsb' 16 8 = b2 := by
      ext j hj; simp only [assembleWord, BitVec.getElem_extractLsb', BitVec.getLsbD_append]; interval_cases j <;> rfl
    have e3 : (assembleWord b0 b1 b2 b3).extractLsb' 24 8 = b3 := by
      ext j hj; simp only [assembleWord, BitVec.getElem_extractLsb', BitVec.getLsbD_append]; interval_cases j <;> rfl
    simp [wordBytes, e0, e1, e2, e3]

/-- With a whole word left, a step drives the word on `insn_i`, lets the outputs follow and emits the line. -/
theorem step_of_word {s : State} {w : Word} {rest : List Byte} (hr : s.scan = .running)
    (hb : pendingBytes s = wordBytes w ++ rest) : step s = .next (emitLine (redrive { s.inp with insn := w } s)) := by
  simp only [step, hr, fetch, hb, decode_wordBytes]
  cases h : decodeWord s.par.amoorFunct5 w with
  | some i =>
    simp only [exec_eq, emitAfter_next, presentWord, redrive]
    rw [block_of_some (inp := { s.inp with insn := w }) h]
  | none =>
    simp only [driveUnrecognised_eq, emitAfter_next, presentWord, redrive]
    rw [block_of_none (inp := { s.inp with insn := w }) h]

/-- With no whole word left, a step ends or fails the scan. -/
theorem step_of_noWord {s : State} (hr : s.scan = .running) (hb : (pendingBytes s).length < 4) :
    step s = .next (finishScan s) := by
  have hd : fetch s = .noWord := (decode_eq_noWord _ _).mpr hb
  simp [step, hr, hd]

/-- When the scan is over, a step is the fault `scanTerminated`. -/
theorem step_of_terminated {s : State} (hr : s.scan ≠ .running) : step s = .fault .scanTerminated := by
  cases h : s.scan with
  | running => exact absurd h hr
  | ended => simp [step, h]
  | failed e => simp [step, h]

/-- Everything a step that answers a next state can have done. -/
theorem step_cases {s t : State} (h : step s = .next t) :
    s.scan = .running ∧
      ((∃ w rest, pendingBytes s = wordBytes w ++ rest ∧ t = emitLine (redrive { s.inp with insn := w } s)) ∨
        ((pendingBytes s).length < 4 ∧ t = finishScan s)) := by
  have hr : s.scan = .running := by
    by_contra hn
    rw [step_of_terminated hn] at h
    cases h
  refine ⟨hr, ?_⟩
  by_cases hb : 4 ≤ (pendingBytes s).length
  · obtain ⟨w, rest, hw⟩ := exists_wordBytes_append hb
    rw [step_of_word hr hw] at h
    exact .inl ⟨w, rest, hw, (Host.Outcome.next.inj h).symm⟩
  · rw [step_of_noWord hr (by omega)] at h
    exact .inr ⟨by omega, (Host.Outcome.next.inj h).symm⟩

/-! ### The words of a stream -/

/-- The word of four bytes and the bytes after it. -/
@[simp] theorem wordsOf_wordBytes_append (w : Word) (rest : List Byte) :
    wordsOf (wordBytes w ++ rest) = w :: wordsOf rest := by
  simp [wordBytes, wordsOf]

/-- R54: the number of words is `floor(n/4)`. -/
@[simp] theorem length_wordsOf (bytes : List Byte) : (wordsOf bytes).length = bytes.length / 4 := by
  match bytes with
  | [] | [_] | [_, _] | [_, _, _] => simp [wordsOf]
  | b0 :: b1 :: b2 :: b3 :: rest =>
    simp only [wordsOf, List.length_cons, length_wordsOf rest]
    omega

/-- R56: one line per word. -/
@[simp] theorem length_linesFrom (par : Params) (abi pseudo : Bool) (k : Nat) (ws : List Word) :
    (linesFrom par abi pseudo k ws).length = ws.length := by
  induction ws generalizing k with
  | nil => rfl
  | cons w ws ih => simp [linesFrom, ih]

/-! ### The launch -/

/-- R100: a number that is no AMOOR_FUNCT5 is refused. -/
theorem launch_of_amoor {a : Nat} (h : a ≠ 0x08 ∧ a ≠ 0x0A) (token : String) (base : Int) (abi pseudo raw : Bool)
    (src : Source) : launch a token base abi pseudo raw src = .refused (.amoorFunct5NotAllowed a) := by
  simp [launch, AmoorFunct5.ofNat?, h.1, h.2]

/-- I4: a number that is no 32-bit address is refused. -/
theorem launch_of_base {a : Nat} {base : Int} (ha : a = 0x08 ∨ a = 0x0A) (hb : ¬(0 ≤ base ∧ base < 2 ^ 32)) (token : String)
    (abi pseudo raw : Bool) (src : Source) :
    launch a token base abi pseudo raw src = .refused (.baseAddressOutOfRange base) := by
  rcases ha with rfl | rfl <;> simp only [launch, AmoorFunct5.ofNat?] <;> exact if_neg hb

/-- R291: the state of an allowed launch. -/
theorem launch_of_allowed (a : AmoorFunct5) {base : Int} (hb : 0 ≤ base ∧ base < 2 ^ 32) (token : String)
    (abi pseudo raw : Bool) (src : Source) :
    launch a.code.toNat token base abi pseudo raw src =
      .next (redrive ⟨0, abi, pseudo⟩
        { State.reset with par := ⟨a, token, BitVec.ofInt 32 base, raw⟩, source := src }) := by
  cases a <;> simp only [launch, AmoorFunct5.code, AmoorFunct5.ofNat?] <;> exact if_pos hb

/-! ### What is written out -/

@[simp] theorem lineText_listed (lineFormat : LineFormat) (address word : Word) (text : String) :
    lineText lineFormat (.listed address word text) = lineFormat address word text := rfl

@[simp] theorem lineText_bare (lineFormat : LineFormat) (text : String) : lineText lineFormat (.bare text) = text := rfl

@[simp] theorem length_printed (lineFormat : LineFormat) (s : State) : (printed lineFormat s).length = s.lines.length := by
  simp [printed]

/-- A refused launch writes nothing out. -/
theorem disassemble_of_refused {lineFormat : LineFormat} {a : Nat} {token : String} {base : Int} {abi pseudo raw : Bool}
    {src : Source} {r : Refusal} (h : launch a token base abi pseudo raw src = .refused r) :
    disassemble lineFormat a token base abi pseudo raw src = .refused r := by
  simp [disassemble, h]

/-- A launched scan that runs to its end writes its lines out. -/
theorem disassemble_of_run {lineFormat : LineFormat} {a : Nat} {token : String} {base : Int} {abi pseudo raw : Bool}
    {src : Source} {s t : State} (h : launch a token base abi pseudo raw src = .next s)
    (hr : core.run (src.bytes.length / 4 + 1) s = .next t) :
    disassemble lineFormat a token base abi pseudo raw src = .next (printed lineFormat t) := by
  simp only [disassemble, h]
  rw [hr]

end Sys2Proof.Machine
end

