-- ==== Sys2Proof/Laws/PerInstr.lean ====
section
/-! SUPPORT. Per instruction: its encoded word matches its own row of the opcode table. -/

namespace Sys2Proof

/-! ### The keyed bits of an encoded word -/

theorem masked_encodeR (f7 : BitVec 7) (rs2 rs1 : Reg) (f3 : BitVec 3) (rd : Reg) (op : BitVec 7) :
    encodeR f7 rs2 rs1 f3 rd op &&& 0xFE00707F = place f7 25 ||| place f3 12 ||| place op 0 := by
  apply BitVec.eq_of_getLsbD_eq
  intro j hj
  interval_cases j <;> simp [encodeR]

theorem masked_encodeShift (f7 : BitVec 7) (imm : Word) (rs1 : Reg) (f3 : BitVec 3) (rd : Reg) (op : BitVec 7) :
    encodeShift f7 imm rs1 f3 rd op &&& 0xFE00707F = place f7 25 ||| place f3 12 ||| place op 0 := by
  apply BitVec.eq_of_getLsbD_eq
  intro j hj
  interval_cases j <;> simp [encodeShift]

theorem masked_encodeA (f5 : BitVec 5) (order : BitVec 2) (rs2 rs1 : Reg) (f3 : BitVec 3) (rd : Reg) (op : BitVec 7) :
    encodeA f5 order rs2 rs1 f3 rd op &&& 0xF800707F = place f5 27 ||| place f3 12 ||| place op 0 := by
  apply BitVec.eq_of_getLsbD_eq
  intro j hj
  interval_cases j <;> simp [encodeA]

theorem masked_encodeI (imm : Word) (rs1 : Reg) (f3 : BitVec 3) (rd : Reg) (op : BitVec 7) :
    encodeI imm rs1 f3 rd op &&& 0x0000707F = place f3 12 ||| place op 0 := by
  apply BitVec.eq_of_getLsbD_eq
  intro j hj
  interval_cases j <;> simp [encodeI]

theorem masked_encodeI12 (imm : Word) (rs1 : Reg) (f3 : BitVec 3) (rd : Reg) (op : BitVec 7) :
    encodeI imm rs1 f3 rd op &&& 0xFFF0707F = place (imm.extractLsb' 0 12) 20 ||| place f3 12 ||| place op 0 := by
  apply BitVec.eq_of_getLsbD_eq
  intro j hj
  interval_cases j <;> simp [encodeI]

theorem masked_encodeS (imm : Word) (rs2 rs1 : Reg) (f3 : BitVec 3) (op : BitVec 7) :
    encodeS imm rs2 rs1 f3 op &&& 0x0000707F = place f3 12 ||| place op 0 := by
  apply BitVec.eq_of_getLsbD_eq
  intro j hj
  interval_cases j <;> simp [encodeS]

theorem masked_encodeB (imm : Word) (rs2 rs1 : Reg) (f3 : BitVec 3) (op : BitVec 7) :
    encodeB imm rs2 rs1 f3 op &&& 0x0000707F = place f3 12 ||| place op 0 := by
  apply BitVec.eq_of_getLsbD_eq
  intro j hj
  interval_cases j <;> simp [encodeB]

theorem masked_encodeU (imm : Word) (rd : Reg) (op : BitVec 7) :
    encodeU imm rd op &&& 0x0000007F = place op 0 := by
  apply BitVec.eq_of_getLsbD_eq
  intro j hj
  interval_cases j <;> simp [encodeU]

theorem masked_encodeJ (imm : Word) (rd : Reg) (op : BitVec 7) :
    encodeJ imm rd op &&& 0x0000007F = place op 0 := by
  apply BitVec.eq_of_getLsbD_eq
  intro j hj
  interval_cases j <;> simp [encodeJ]

end Sys2Proof

namespace Sys2Proof.Laws.RowKey

open Sys2Proof.Machine

/-- The word of `i` matches a row of opcode_table.json, and the row's code is the one `i` drives on `mnem_o`. -/
def Statement (i : Instr) : Prop :=
  ∀ a inp, ∃ r ∈ opcodeRows a, r.matchesWord (encode a i) = true ∧ r.code = (recordOf i inp).mnem

/-- The shape of every proof below: name the row, find it in the table, compare the keyed bits. -/
theorem of_row {i : Instr} (r : AmoorFunct5 → OpcodeRow) (hm : ∀ a, r a ∈ opcodeRows a)
    (hw : ∀ a, encode a i &&& (r a).mask = (r a).value) (hc : ∀ a inp, (r a).code = (recordOf i inp).mnem) :
    Statement i := fun a inp => ⟨r a, hm a, by simp [OpcodeRow.matchesWord, hw a], hc a inp⟩

theorem add (rd rs1 rs2 : Reg) : Statement (.add rd rs1 rs2) :=
  of_row (fun _ => ⟨1, 0xFE00707F, 0x00000033⟩) (by intro a; cases a <;> decide)
    (by intro a; rw [encode, masked_encodeR]; decide) (fun _ _ => rfl)

theorem sub (rd rs1 rs2 : Reg) : Statement (.sub rd rs1 rs2) :=
  of_row (fun _ => ⟨2, 0xFE00707F, 0x40000033⟩) (by intro a; cases a <;> decide)
    (by intro a; rw [encode, masked_encodeR]; decide) (fun _ _ => rfl)

theorem sll (rd rs1 rs2 : Reg) : Statement (.sll rd rs1 rs2) :=
  of_row (fun _ => ⟨3, 0xFE00707F, 0x00001033⟩) (by intro a; cases a <;> decide)
    (by intro a; rw [encode, masked_encodeR]; decide) (fun _ _ => rfl)

theorem slt (rd rs1 rs2 : Reg) : Statement (.slt rd rs1 rs2) :=
  of_row (fun _ => ⟨4, 0xFE00707F, 0x00002033⟩) (by intro a; cases a <;> decide)
    (by intro a; rw [encode, masked_encodeR]; decide) (fun _ _ => rfl)

theorem sltu (rd rs1 rs2 : Reg) : Statement (.sltu rd rs1 rs2) :=
  of_row (fun _ => ⟨5, 0xFE00707F, 0x00003033⟩) (by intro a; cases a <;> decide)
    (by intro a; rw [encode, masked_encodeR]; decide) (fun _ _ => rfl)

theorem xor (rd rs1 rs2 : Reg) : Statement (.xor rd rs1 rs2) :=
  of_row (fun _ => ⟨6, 0xFE00707F, 0x00004033⟩) (by intro a; cases a <;> decide)
    (by intro a; rw [encode, masked_encodeR]; decide) (fun _ _ => rfl)

theorem srl (rd rs1 rs2 : Reg) : Statement (.srl rd rs1 rs2) :=
  of_row (fun _ => ⟨7, 0xFE00707F, 0x00005033⟩) (by intro a; cases a <;> decide)
    (by intro a; rw [encode, masked_encodeR]; decide) (fun _ _ => rfl)

theorem sra (rd rs1 rs2 : Reg) : Statement (.sra rd rs1 rs2) :=
  of_row (fun _ => ⟨8, 0xFE00707F, 0x40005033⟩) (by intro a; cases a <;> decide)
    (by intro a; rw [encode, masked_encodeR]; decide) (fun _ _ => rfl)

theorem or (rd rs1 rs2 : Reg) : Statement (.or rd rs1 rs2) :=
  of_row (fun _ => ⟨9, 0xFE00707F, 0x00006033⟩) (by intro a; cases a <;> decide)
    (by intro a; rw [encode, masked_encodeR]; decide) (fun _ _ => rfl)

theorem and (rd rs1 rs2 : Reg) : Statement (.and rd rs1 rs2) :=
  of_row (fun _ => ⟨10, 0xFE00707F, 0x00007033⟩) (by intro a; cases a <;> decide)
    (by intro a; rw [encode, masked_encodeR]; decide) (fun _ _ => rfl)

theorem mul (rd rs1 rs2 : Reg) : Statement (.mul rd rs1 rs2) :=
  of_row (fun _ => ⟨11, 0xFE00707F, 0x02000033⟩) (by intro a; cases a <;> decide)
    (by intro a; rw [encode, masked_encodeR]; decide) (fun _ _ => rfl)

theorem mulh (rd rs1 rs2 : Reg) : Statement (.mulh rd rs1 rs2) :=
  of_row (fun _ => ⟨12, 0xFE00707F, 0x02001033⟩) (by intro a; cases a <;> decide)
    (by intro a; rw [encode, masked_encodeR]; decide) (fun _ _ => rfl)

theorem mulhsu (rd rs1 rs2 : Reg) : Statement (.mulhsu rd rs1 rs2) :=
  of_row (fun _ => ⟨13, 0xFE00707F, 0x02002033⟩) (by intro a; cases a <;> decide)
    (by intro a; rw [encode, masked_encodeR]; decide) (fun _ _ => rfl)

theorem mulhu (rd rs1 rs2 : Reg) : Statement (.mulhu rd rs1 rs2) :=
  of_row (fun _ => ⟨14, 0xFE00707F, 0x02003033⟩) (by intro a; cases a <;> decide)
    (by intro a; rw [encode, masked_encodeR]; decide) (fun _ _ => rfl)

theorem div (rd rs1 rs2 : Reg) : Statement (.div rd rs1 rs2) :=
  of_row (fun _ => ⟨15, 0xFE00707F, 0x02004033⟩) (by intro a; cases a <;> decide)
    (by intro a; rw [encode, masked_encodeR]; decide) (fun _ _ => rfl)

theorem divu (rd rs1 rs2 : Reg) : Statement (.divu rd rs1 rs2) :=
  of_row (fun _ => ⟨16, 0xFE00707F, 0x02005033⟩) (by intro a; cases a <;> decide)
    (by intro a; rw [encode, masked_encodeR]; decide) (fun _ _ => rfl)

theorem rem (rd rs1 rs2 : Reg) : Statement (.rem rd rs1 rs2) :=
  of_row (fun _ => ⟨17, 0xFE00707F, 0x02006033⟩) (by intro a; cases a <;> decide)
    (by intro a; rw [encode, masked_encodeR]; decide) (fun _ _ => rfl)

theorem remu (rd rs1 rs2 : Reg) : Statement (.remu rd rs1 rs2) :=
  of_row (fun _ => ⟨18, 0xFE00707F, 0x02007033⟩) (by intro a; cases a <;> decide)
    (by intro a; rw [encode, masked_encodeR]; decide) (fun _ _ => rfl)

theorem addi (rd rs1 : Reg) (imm : Word) : Statement (.addi rd rs1 imm) :=
  of_row (fun _ => ⟨19, 0x0000707F, 0x00000013⟩) (by intro a; cases a <;> decide)
    (by intro a; rw [encode, masked_encodeI]; decide) (fun _ _ => rfl)

theorem slti (rd rs1 : Reg) (imm : Word) : Statement (.slti rd rs1 imm) :=
  of_row (fun _ => ⟨20, 0x0000707F, 0x00002013⟩) (by intro a; cases a <;> decide)
    (by intro a; rw [encode, masked_encodeI]; decide) (fun _ _ => rfl)

theorem sltiu (rd rs1 : Reg) (imm : Word) : Statement (.sltiu rd rs1 imm) :=
  of_row (fun _ => ⟨21, 0x0000707F, 0x00003013⟩) (by intro a; cases a <;> decide)
    (by intro a; rw [encode, masked_encodeI]; decide) (fun _ _ => rfl)

theorem xori (rd rs1 : Reg) (imm : Word) : Statement (.xori rd rs1 imm) :=
  of_row (fun _ => ⟨22, 0x0000707F, 0x00004013⟩) (by intro a; cases a <;> decide)
    (by intro a; rw [encode, masked_encodeI]; decide) (fun _ _ => rfl)

theorem ori (rd rs1 : Reg) (imm : Word) : Statement (.ori rd rs1 imm) :=
  of_row (fun _ => ⟨23, 0x0000707F, 0x00006013⟩) (by intro a; cases a <;> decide)
    (by intro a; rw [encode, masked_encodeI]; decide) (fun _ _ => rfl)

theorem andi (rd rs1 : Reg) (imm : Word) : Statement (.andi rd rs1 imm) :=
  of_row (fun _ => ⟨24, 0x0000707F, 0x00007013⟩) (by intro a; cases a <;> decide)
    (by intro a; rw [encode, masked_encodeI]; decide) (fun _ _ => rfl)

theorem slli (rd rs1 : Reg) (imm : Word) : Statement (.slli rd rs1 imm) :=
  of_row (fun _ => ⟨25, 0xFE00707F, 0x00001013⟩) (by intro a; cases a <;> decide)
    (by intro a; rw [encode, masked_encodeShift]; decide) (fun _ _ => rfl)

theorem srli (rd rs1 : Reg) (imm : Word) : Statement (.srli rd rs1 imm) :=
  of_row (fun _ => ⟨26, 0xFE00707F, 0x00005013⟩) (by intro a; cases a <;> decide)
    (by intro a; rw [encode, masked_encodeShift]; decide) (fun _ _ => rfl)

theorem srai (rd rs1 : Reg) (imm : Word) : Statement (.srai rd rs1 imm) :=
  of_row (fun _ => ⟨27, 0xFE00707F, 0x40005013⟩) (by intro a; cases a <;> decide)
    (by intro a; rw [encode, masked_encodeShift]; decide) (fun _ _ => rfl)

theorem lb (rd rs1 : Reg) (imm : Word) : Statement (.lb rd rs1 imm) :=
  of_row (fun _ => ⟨28, 0x0000707F, 0x00000003⟩) (by intro a; cases a <;> decide)
    (by intro a; rw [encode, masked_encodeI]; decide) (fun _ _ => rfl)

theorem lh (rd rs1 : Reg) (imm : Word) : Statement (.lh rd rs1 imm) :=
  of_row (fun _ => ⟨29, 0x0000707F, 0x00001003⟩) (by intro a; cases a <;> decide)
    (by intro a; rw [encode, masked_encodeI]; decide) (fun _ _ => rfl)

theorem lw (rd rs1 : Reg) (imm : Word) : Statement (.lw rd rs1 imm) :=
  of_row (fun _ => ⟨30, 0x0000707F, 0x00002003⟩) (by intro a; cases a <;> decide)
    (by intro a; rw [encode, masked_encodeI]; decide) (fun _ _ => rfl)

theorem lbu (rd rs1 : Reg) (imm : Word) : Statement (.lbu rd rs1 imm) :=
  of_row (fun _ => ⟨31, 0x0000707F, 0x00004003⟩) (by intro a; cases a <;> decide)
    (by intro a; rw [encode, masked_encodeI]; decide) (fun _ _ => rfl)

theorem lhu (rd rs1 : Reg) (imm : Word) : Statement (.lhu rd rs1 imm) :=
  of_row (fun _ => ⟨32, 0x0000707F, 0x00005003⟩) (by intro a; cases a <;> decide)
    (by intro a; rw [encode, masked_encodeI]; decide) (fun _ _ => rfl)

theorem sb (rs2 rs1 : Reg) (imm : Word) : Statement (.sb rs2 rs1 imm) :=
  of_row (fun _ => ⟨33, 0x0000707F, 0x00000023⟩) (by intro a; cases a <;> decide)
    (by intro a; rw [encode, masked_encodeS]; decide) (fun _ _ => rfl)

theorem sh (rs2 rs1 : Reg) (imm : Word) : Statement (.sh rs2 rs1 imm) :=
  of_row (fun _ => ⟨34, 0x0000707F, 0x00001023⟩) (by intro a; cases a <;> decide)
    (by intro a; rw [encode, masked_encodeS]; decide) (fun _ _ => rfl)

theorem sw (rs2 rs1 : Reg) (imm : Word) : Statement (.sw rs2 rs1 imm) :=
  of_row (fun _ => ⟨35, 0x0000707F, 0x00002023⟩) (by intro a; cases a <;> decide)
    (by intro a; rw [encode, masked_encodeS]; decide) (fun _ _ => rfl)

theorem beq (rs1 rs2 : Reg) (imm : Word) : Statement (.beq rs1 rs2 imm) :=
  of_row (fun _ => ⟨36, 0x0000707F, 0x00000063⟩) (by intro a; cases a <;> decide)
    (by intro a; rw [encode, masked_encodeB]; decide) (fun _ _ => rfl)

theorem bne (rs1 rs2 : Reg) (imm : Word) : Statement (.bne rs1 rs2 imm) :=
  of_row (fun _ => ⟨37, 0x0000707F, 0x00001063⟩) (by intro a; cases a <;> decide)
    (by intro a; rw [encode, masked_encodeB]; decide) (fun _ _ => rfl)

theorem blt (rs1 rs2 : Reg) (imm : Word) : Statement (.blt rs1 rs2 imm) :=
  of_row (fun _ => ⟨38, 0x0000707F, 0x00004063⟩) (by intro a; cases a <;> decide)
    (by intro a; rw [encode, masked_encodeB]; decide) (fun _ _ => rfl)

theorem bge (rs1 rs2 : Reg) (imm : Word) : Statement (.bge rs1 rs2 imm) :=
  of_row (fun _ => ⟨39, 0x0000707F, 0x00005063⟩) (by intro a; cases a <;> decide)
    (by intro a; rw [encode, masked_encodeB]; decide) (fun _ _ => rfl)

theorem bltu (rs1 rs2 : Reg) (imm : Word) : Statement (.bltu rs1 rs2 imm) :=
  of_row (fun _ => ⟨40, 0x0000707F, 0x00006063⟩) (by intro a; cases a <;> decide)
    (by intro a; rw [encode, masked_encodeB]; decide) (fun _ _ => rfl)

theorem bgeu (rs1 rs2 : Reg) (imm : Word) : Statement (.bgeu rs1 rs2 imm) :=
  of_row (fun _ => ⟨41, 0x0000707F, 0x00007063⟩) (by intro a; cases a <;> decide)
    (by intro a; rw [encode, masked_encodeB]; decide) (fun _ _ => rfl)

theorem jal (rd : Reg) (imm : Word) : Statement (.jal rd imm) :=
  of_row (fun _ => ⟨42, 0x0000007F, 0x0000006F⟩) (by intro a; cases a <;> decide)
    (by intro a; rw [encode, masked_encodeJ]; decide) (fun _ _ => rfl)

theorem jalr (rd rs1 : Reg) (imm : Word) : Statement (.jalr rd rs1 imm) :=
  of_row (fun _ => ⟨43, 0x0000707F, 0x00000067⟩) (by intro a; cases a <;> decide)
    (by intro a; rw [encode, masked_encodeI]; decide) (fun _ _ => rfl)

theorem lui (rd : Reg) (imm : Word) : Statement (.lui rd imm) :=
  of_row (fun _ => ⟨44, 0x0000007F, 0x00000037⟩) (by intro a; cases a <;> decide)
    (by intro a; rw [encode, masked_encodeU]; decide) (fun _ _ => rfl)

theorem auipc (rd : Reg) (imm : Word) : Statement (.auipc rd imm) :=
  of_row (fun _ => ⟨45, 0x0000007F, 0x00000017⟩) (by intro a; cases a <;> decide)
    (by intro a; rw [encode, masked_encodeU]; decide) (fun _ _ => rfl)

theorem ecall (rd rs1 : Reg) : Statement (.ecall rd rs1) :=
  of_row (fun _ => ⟨46, 0xFFF0707F, 0x00000073⟩) (by intro a; cases a <;> decide)
    (by intro a; rw [encode, masked_encodeI12]; decide) (fun _ _ => rfl)

theorem ebreak (rd rs1 : Reg) : Statement (.ebreak rd rs1) :=
  of_row (fun _ => ⟨47, 0xFFF0707F, 0x00100073⟩) (by intro a; cases a <;> decide)
    (by intro a; rw [encode, masked_encodeI12]; decide) (fun _ _ => rfl)

theorem lrW (rd rs1 rs2 : Reg) (order : BitVec 2) : Statement (.lrW rd rs1 rs2 order) :=
  of_row (fun _ => ⟨48, 0xF800707F, 0x1000202F⟩) (by intro a; cases a <;> decide)
    (by intro a; rw [encode, masked_encodeA]; decide) (fun _ _ => rfl)

theorem scW (rd rs2 rs1 : Reg) (order : BitVec 2) : Statement (.scW rd rs2 rs1 order) :=
  of_row (fun _ => ⟨49, 0xF800707F, 0x1800202F⟩) (by intro a; cases a <;> decide)
    (by intro a; rw [encode, masked_encodeA]; decide) (fun _ _ => rfl)

theorem amoswapW (rd rs2 rs1 : Reg) (order : BitVec 2) : Statement (.amoswapW rd rs2 rs1 order) :=
  of_row (fun _ => ⟨50, 0xF800707F, 0x0800202F⟩) (by intro a; cases a <;> decide)
    (by intro a; rw [encode, masked_encodeA]; decide) (fun _ _ => rfl)

theorem amoaddW (rd rs2 rs1 : Reg) (order : BitVec 2) : Statement (.amoaddW rd rs2 rs1 order) :=
  of_row (fun _ => ⟨51, 0xF800707F, 0x0000202F⟩) (by intro a; cases a <;> decide)
    (by intro a; rw [encode, masked_encodeA]; decide) (fun _ _ => rfl)

theorem amoxorW (rd rs2 rs1 : Reg) (order : BitVec 2) : Statement (.amoxorW rd rs2 rs1 order) :=
  of_row (fun _ => ⟨52, 0xF800707F, 0x2000202F⟩) (by intro a; cases a <;> decide)
    (by intro a; rw [encode, masked_encodeA]; decide) (fun _ _ => rfl)

theorem amoandW (rd rs2 rs1 : Reg) (order : BitVec 2) : Statement (.amoandW rd rs2 rs1 order) :=
  of_row (fun _ => ⟨53, 0xF800707F, 0x6000202F⟩) (by intro a; cases a <;> decide)
    (by intro a; rw [encode, masked_encodeA]; decide) (fun _ _ => rfl)

theorem amoorW (rd rs2 rs1 : Reg) (order : BitVec 2) : Statement (.amoorW rd rs2 rs1 order) :=
  of_row (fun a => ⟨54, 0xF800707F, a.rowMatch⟩) (by intro a; cases a <;> decide)
    (by intro a; rw [encode, masked_encodeA]; cases a <;> decide) (fun _ _ => rfl)

theorem amominW (rd rs2 rs1 : Reg) (order : BitVec 2) : Statement (.amominW rd rs2 rs1 order) :=
  of_row (fun _ => ⟨55, 0xF800707F, 0x8000202F⟩) (by intro a; cases a <;> decide)
    (by intro a; rw [encode, masked_encodeA]; decide) (fun _ _ => rfl)

theorem amomaxW (rd rs2 rs1 : Reg) (order : BitVec 2) : Statement (.amomaxW rd rs2 rs1 order) :=
  of_row (fun _ => ⟨56, 0xF800707F, 0xA000202F⟩) (by intro a; cases a <;> decide)
    (by intro a; rw [encode, masked_encodeA]; decide) (fun _ _ => rfl)

theorem amominuW (rd rs2 rs1 : Reg) (order : BitVec 2) : Statement (.amominuW rd rs2 rs1 order) :=
  of_row (fun _ => ⟨57, 0xF800707F, 0xC000202F⟩) (by intro a; cases a <;> decide)
    (by intro a; rw [encode, masked_encodeA]; decide) (fun _ _ => rfl)

theorem amomaxuW (rd rs2 rs1 : Reg) (order : BitVec 2) : Statement (.amomaxuW rd rs2 rs1 order) :=
  of_row (fun _ => ⟨58, 0xF800707F, 0xE000202F⟩) (by intro a; cases a <;> decide)
    (by intro a; rw [encode, masked_encodeA]; decide) (fun _ _ => rfl)

end Sys2Proof.Laws.RowKey
end

