-- ==== Sys2Proof/Machine/Flags.lean ====
section
/-! DEFINITION. Flags: there are none. "The block has no status flags, condition codes or predicates" (10_state.md R31), and
the rule of every instruction says "Flags written: none". (`valid_o`, the recognised flag of the decoded record, is an output
port: `Out.valid`, driven in Ops.) -/

namespace Sys2Proof.Machine

/-- The status flags and condition codes of the block: no constructor (R31). -/
inductive Flag where
deriving DecidableEq, Repr

/-- The flags an instruction writes: none, for each of the 58 (R31). -/
def flagsWritten (_ : Instr) : List Flag := []

end Sys2Proof.Machine
end

