-- ==== Sys2Proof/Tests/Slice0.lean ====
section
/-! SUPPORT. The model's own tests, and for every obligation with hypotheses a theorem showing a concrete case that meets
them. Expected values come from spec/: the Example lines of 40 to 49 and the vectors of 95_test_vectors.md. -/

namespace Sys2Proof.Tests

open Sys2Proof.Machine Sys2Proof.Safety Sys2Proof.Claims

/-- The state after a step, if there is one. -/
def after : Host.Outcome State Fault Refusal → Option State
  | .next s => some s
  | _       => none

/-- The default block's record for a word. -/
def drives (w : Word) (abi : Bool) : Out := block Params.default ⟨w, abi, false⟩

/-- A word renders as the first text with numeric names and as the second with ABI names. -/
def rendersAs (e : Word × String × String) : Bool :=
  (drives e.1 false).text == e.2.1 && (drives e.1 true).text == e.2.2

/-- A word is unrecognised: the record of R29. -/
def isUnrecognised (w : Word) : Bool :=
  drives w true == ⟨extractFields w, false, 0, 0, 0, 0, "???"⟩

/-- A scan of the given bytes, as launched with ABI names at a base address, `k` words already read. -/
def scanOf (base : Word) (bytes : List Byte) (failing : Bool) (k : Nat) : State :=
  { State.reset with
    par := { Params.default with baseAddress := base }, inp := ⟨0, true, false⟩, source := ⟨bytes, failing⟩, k := k }

/-! ### Well-formedness: each check refuses an ill-formed term -/

theorem test_wf_refuses_I : (Instr.addi 1 2 0x00000800).wf = false ∧ (Instr.lw 1 2 0xFFFFF7FF).wf = false := by decide
theorem test_wf_refuses_S : (Instr.sw 1 2 0x00000800).wf = false := by decide
theorem test_wf_refuses_shift : (Instr.srai 1 2 32).wf = false := by decide
theorem test_wf_refuses_odd_branch : (Instr.beq 1 2 0x00000009).wf = false := by decide
theorem test_wf_refuses_far_branch : (Instr.bgeu 1 2 0x00001000).wf = false := by decide
theorem test_wf_refuses_U : (Instr.lui 1 0x00000001).wf = false := by decide
theorem test_wf_refuses_odd_jal : (Instr.jal 1 0x00000001).wf = false := by decide
theorem test_wf_refuses_far_jal : (Instr.jal 1 0x00100000).wf = false := by decide

/-! ### Decoding and rendering: every constructor -/

/-- 40_rtype.md: each instruction, its example word written out field by field. -/
theorem test_decode_rtype :
    decodeTableWord 32 0b0000000_01100_01011_000_01010_0110011 = some (.add 10 11 12) ∧
    decodeTableWord 32 0b0100000_01100_01011_000_01010_0110011 = some (.sub 10 11 12) ∧
    decodeTableWord 32 0b0000000_01100_01011_001_01010_0110011 = some (.sll 10 11 12) ∧
    decodeTableWord 32 0b0000000_01100_01011_010_01010_0110011 = some (.slt 10 11 12) ∧
    decodeTableWord 32 0b0000000_01100_01011_011_01010_0110011 = some (.sltu 10 11 12) ∧
    decodeTableWord 32 0b0000000_01100_01011_100_01010_0110011 = some (.xor 10 11 12) ∧
    decodeTableWord 32 0b0000000_01100_01011_101_01010_0110011 = some (.srl 10 11 12) ∧
    decodeTableWord 32 0b0100000_01100_01011_101_01010_0110011 = some (.sra 10 11 12) ∧
    decodeTableWord 32 0b0000000_01100_01011_110_01010_0110011 = some (.or 10 11 12) ∧
    decodeTableWord 32 0b0000000_01100_01011_111_01010_0110011 = some (.and 10 11 12) := by decide

/-- 40_rtype.md, Example lines: the texts with numeric and with ABI names. -/
theorem test_text_rtype :
    ([(0x00C58533, "add x10,x11,x12", "add a0,a1,a2"),
      (0x40C58533, "sub x10,x11,x12", "sub a0,a1,a2"),
      (0x00C59533, "sll x10,x11,x12", "sll a0,a1,a2"),
      (0x00C5A533, "slt x10,x11,x12", "slt a0,a1,a2"),
      (0x00C5B533, "sltu x10,x11,x12", "sltu a0,a1,a2"),
      (0x00C5C533, "xor x10,x11,x12", "xor a0,a1,a2"),
      (0x00C5D533, "srl x10,x11,x12", "srl a0,a1,a2"),
      (0x40C5D533, "sra x10,x11,x12", "sra a0,a1,a2"),
      (0x00C5E533, "or x10,x11,x12", "or a0,a1,a2"),
      (0x00C5F533, "and x10,x11,x12", "and a0,a1,a2")] : List (Word × String × String)).all rendersAs = true := by decide

/-- 41_m_extension.md: each instruction, its example word written out field by field. -/
theorem test_decode_mext :
    decodeTableWord 32 0b0000001_00111_00110_000_00101_0110011 = some (.mul 5 6 7) ∧
    decodeTableWord 32 0b0000001_00111_00110_001_00101_0110011 = some (.mulh 5 6 7) ∧
    decodeTableWord 32 0b0000001_00111_00110_010_00101_0110011 = some (.mulhsu 5 6 7) ∧
    decodeTableWord 32 0b0000001_00111_00110_011_00101_0110011 = some (.mulhu 5 6 7) ∧
    decodeTableWord 32 0b0000001_00111_00110_100_00101_0110011 = some (.div 5 6 7) ∧
    decodeTableWord 32 0b0000001_00111_00110_101_00101_0110011 = some (.divu 5 6 7) ∧
    decodeTableWord 32 0b0000001_00111_00110_110_00101_0110011 = some (.rem 5 6 7) ∧
    decodeTableWord 32 0b0000001_00111_00110_111_00101_0110011 = some (.remu 5 6 7) := by decide

/-- 41_m_extension.md, Example lines: the texts with numeric and with ABI names. -/
theorem test_text_mext :
    ([(0x027302B3, "mul x5,x6,x7", "mul t0,t1,t2"),
      (0x027312B3, "mulh x5,x6,x7", "mulh t0,t1,t2"),
      (0x027322B3, "mulhsu x5,x6,x7", "mulhsu t0,t1,t2"),
      (0x027332B3, "mulhu x5,x6,x7", "mulhu t0,t1,t2"),
      (0x027342B3, "div x5,x6,x7", "div t0,t1,t2"),
      (0x027352B3, "divu x5,x6,x7", "divu t0,t1,t2"),
      (0x027362B3, "rem x5,x6,x7", "rem t0,t1,t2"),
      (0x027372B3, "remu x5,x6,x7", "remu t0,t1,t2")] : List (Word × String × String)).all rendersAs = true := by decide

/-- 42_itype_arith.md: each instruction, its example word written out field by field. -/
theorem test_decode_itype :
    decodeTableWord 32 0b111111111111_01011_000_01010_0010011 = some (.addi 10 11 0xFFFFFFFF) ∧
    decodeTableWord 32 0b000000000101_01011_010_01010_0010011 = some (.slti 10 11 0x00000005) ∧
    decodeTableWord 32 0b000000000001_01011_011_01010_0010011 = some (.sltiu 10 11 0x00000001) ∧
    decodeTableWord 32 0b111111111111_01011_100_01010_0010011 = some (.xori 10 11 0xFFFFFFFF) ∧
    decodeTableWord 32 0b011111111111_01011_110_01010_0010011 = some (.ori 10 11 0x000007FF) ∧
    decodeTableWord 32 0b000011111111_01011_111_01010_0010011 = some (.andi 10 11 0x000000FF) ∧
    decodeTableWord 32 0b0000000_00011_01011_001_01010_0010011 = some (.slli 10 11 0x00000003) ∧
    decodeTableWord 32 0b0000000_11111_01011_101_01010_0010011 = some (.srli 10 11 0x0000001F) ∧
    decodeTableWord 32 0b0100000_00001_01011_101_01010_0010011 = some (.srai 10 11 0x00000001) := by decide

/-- 42_itype_arith.md, Example lines: the texts with numeric and with ABI names. -/
theorem test_text_itype :
    ([(0xFFF58513, "addi x10,x11,#$FFFFFFFF", "addi a0,a1,#$FFFFFFFF"),
      (0x0055A513, "slti x10,x11,#$00000005", "slti a0,a1,#$00000005"),
      (0x0015B513, "sltiu x10,x11,#$00000001", "sltiu a0,a1,#$00000001"),
      (0xFFF5C513, "xori x10,x11,#$FFFFFFFF", "xori a0,a1,#$FFFFFFFF"),
      (0x7FF5E513, "ori x10,x11,#$000007FF", "ori a0,a1,#$000007FF"),
      (0x0FF5F513, "andi x10,x11,#$000000FF", "andi a0,a1,#$000000FF"),
      (0x00359513, "slli x10,x11,#$00000003", "slli a0,a1,#$00000003"),
      (0x01F5D513, "srli x10,x11,#$0000001F", "srli a0,a1,#$0000001F"),
      (0x4015D513, "srai x10,x11,#$00000001", "srai a0,a1,#$00000001")] : List (Word × String × String)).all rendersAs = true := by decide

/-- 43_load.md: each instruction, its example word written out field by field. -/
theorem test_decode_load :
    decodeTableWord 32 0b111111111111_00010_000_01010_0000011 = some (.lb 10 2 0xFFFFFFFF) ∧
    decodeTableWord 32 0b000000000010_00010_001_01010_0000011 = some (.lh 10 2 0x00000002) ∧
    decodeTableWord 32 0b111111111100_00010_010_01010_0000011 = some (.lw 10 2 0xFFFFFFFC) ∧
    decodeTableWord 32 0b011111111111_00010_100_01010_0000011 = some (.lbu 10 2 0x000007FF) ∧
    decodeTableWord 32 0b100000000000_00010_101_01010_0000011 = some (.lhu 10 2 0xFFFFF800) := by decide

/-- 43_load.md, Example lines: the texts with numeric and with ABI names. -/
theorem test_text_load :
    ([(0xFFF10503, "lb x10,$FFFFFFFF(x2)", "lb a0,$FFFFFFFF(sp)"),
      (0x00211503, "lh x10,$00000002(x2)", "lh a0,$00000002(sp)"),
      (0xFFC12503, "lw x10,$FFFFFFFC(x2)", "lw a0,$FFFFFFFC(sp)"),
      (0x7FF14503, "lbu x10,$000007FF(x2)", "lbu a0,$000007FF(sp)"),
      (0x80015503, "lhu x10,$FFFFF800(x2)", "lhu a0,$FFFFF800(sp)")] : List (Word × String × String)).all rendersAs = true := by decide

/-- 44_store.md: each instruction, its example word written out field by field. -/
theorem test_decode_store :
    decodeTableWord 32 0b0000001_01010_00010_000_00000_0100011 = some (.sb 10 2 0x00000020) ∧
    decodeTableWord 32 0b1111111_01010_00010_001_11110_0100011 = some (.sh 10 2 0xFFFFFFFE) ∧
    decodeTableWord 32 0b1111111_00001_00010_010_11100_0100011 = some (.sw 1 2 0xFFFFFFFC) := by decide

/-- 44_store.md, Example lines: the texts with numeric and with ABI names. -/
theorem test_text_store :
    ([(0x02A10023, "sb x10,$00000020(x2)", "sb a0,$00000020(sp)"),
      (0xFEA11F23, "sh x10,$FFFFFFFE(x2)", "sh a0,$FFFFFFFE(sp)"),
      (0xFE112E23, "sw x1,$FFFFFFFC(x2)", "sw ra,$FFFFFFFC(sp)")] : List (Word × String × String)).all rendersAs = true := by decide

/-- 45_branch.md: each instruction, its example word written out field by field. -/
theorem test_decode_branch :
    decodeTableWord 32 0b0_000000_01011_01010_000_0100_0_1100011 = some (.beq 10 11 0x00000008) ∧
    decodeTableWord 32 0b1_111111_01011_01010_001_1100_1_1100011 = some (.bne 10 11 0xFFFFFFF8) ∧
    decodeTableWord 32 0b0_111111_01011_01010_100_1111_1_1100011 = some (.blt 10 11 0x00000FFE) ∧
    decodeTableWord 32 0b1_000000_01011_01010_101_0000_0_1100011 = some (.bge 10 11 0xFFFFF000) ∧
    decodeTableWord 32 0b0_000000_01011_01010_110_0000_1_1100011 = some (.bltu 10 11 0x00000800) ∧
    decodeTableWord 32 0b1_111111_01011_01010_111_1111_1_1100011 = some (.bgeu 10 11 0xFFFFFFFE) := by decide

/-- 45_branch.md, Example lines: the texts with numeric and with ABI names. -/
theorem test_text_branch :
    ([(0x00B50463, "beq x10,x11,*+$00000008", "beq a0,a1,*+$00000008"),
      (0xFEB51CE3, "bne x10,x11,*+$FFFFFFF8", "bne a0,a1,*+$FFFFFFF8"),
      (0x7EB54FE3, "blt x10,x11,*+$00000FFE", "blt a0,a1,*+$00000FFE"),
      (0x80B55063, "bge x10,x11,*+$FFFFF000", "bge a0,a1,*+$FFFFF000"),
      (0x00B560E3, "bltu x10,x11,*+$00000800", "bltu a0,a1,*+$00000800"),
      (0xFEB57FE3, "bgeu x10,x11,*+$FFFFFFFE", "bgeu a0,a1,*+$FFFFFFFE")] : List (Word × String × String)).all rendersAs = true := by decide

/-- 46_jump.md: each instruction, its example word written out field by field. -/
theorem test_decode_jump :
    decodeTableWord 32 0b0_0000000000_1_00000000_00001_1101111 = some (.jal 1 0x00000800) ∧
    decodeTableWord 32 0b000000000000_01010_000_00001_1100111 = some (.jalr 1 10 0x00000000) := by decide

/-- 46_jump.md, Example lines: the texts with numeric and with ABI names. -/
theorem test_text_jump :
    ([(0x001000EF, "jal x1,*+$00000800", "jal ra,*+$00000800"),
      (0x000500E7, "jalr x1,$00000000(x10)", "jalr ra,$00000000(a0)")] : List (Word × String × String)).all rendersAs = true := by decide

/-- 47_upper.md: each instruction, its example word written out field by field. -/
theorem test_decode_upper :
    decodeTableWord 32 0b10000000000000000000_00010_0110111 = some (.lui 2 0x80000000) ∧
    decodeTableWord 32 0b00010010001101000101_00011_0010111 = some (.auipc 3 0x12345000) := by decide

/-- 47_upper.md, Example lines: the texts with numeric and with ABI names. -/
theorem test_text_upper :
    ([(0x80000137, "lui x2,#$80000000", "lui sp,#$80000000"),
      (0x12345197, "auipc x3,#$12345000", "auipc gp,#$12345000")] : List (Word × String × String)).all rendersAs = true := by decide

/-- 48_system.md: each instruction, its example word written out field by field. -/
theorem test_decode_system :
    decodeTableWord 32 0b000000000000_00000_000_00000_1110011 = some (.ecall 0 0) ∧
    decodeTableWord 32 0b000000000001_00000_000_00000_1110011 = some (.ebreak 0 0) := by decide

/-- 48_system.md, Example lines: the texts with numeric and with ABI names. -/
theorem test_text_system :
    ([(0x00000073, "ecall", "ecall"),
      (0x00100073, "ebreak", "ebreak")] : List (Word × String × String)).all rendersAs = true := by decide

/-- 49_atomic.md: each instruction, its example word written out field by field. -/
theorem test_decode_atomic :
    decodeTableWord 32 0b00010_0_0_00000_01011_010_01010_0101111 = some (.lrW 10 11 0 0) ∧
    decodeTableWord 32 0b00011_0_0_01100_01011_010_01010_0101111 = some (.scW 10 12 11 0) ∧
    decodeTableWord 32 0b00001_0_0_01100_01011_010_01010_0101111 = some (.amoswapW 10 12 11 0) ∧
    decodeTableWord 32 0b00000_0_0_01100_01011_010_01010_0101111 = some (.amoaddW 10 12 11 0) ∧
    decodeTableWord 32 0b00100_0_0_01100_01011_010_01010_0101111 = some (.amoxorW 10 12 11 0) ∧
    decodeTableWord 32 0b01100_0_0_01100_01011_010_01010_0101111 = some (.amoandW 10 12 11 0) ∧
    decodeTableWord 32 0b01000_0_0_01100_01011_010_01010_0101111 = some (.amoorW 10 12 11 0) ∧
    decodeTableWord 32 0b10000_0_0_01100_01011_010_01010_0101111 = some (.amominW 10 12 11 0) ∧
    decodeTableWord 32 0b10100_0_0_01100_01011_010_01010_0101111 = some (.amomaxW 10 12 11 0) ∧
    decodeTableWord 32 0b11000_0_0_01100_01011_010_01010_0101111 = some (.amominuW 10 12 11 0) ∧
    decodeTableWord 32 0b11100_0_0_01100_01011_010_01010_0101111 = some (.amomaxuW 10 12 11 0) := by decide

/-- 49_atomic.md, Example lines: the texts with numeric and with ABI names. -/
theorem test_text_atomic :
    ([(0x1005A52F, "lr.w x10,(x11)", "lr.w a0,(a1)"),
      (0x18C5A52F, "sc.w x10,x12,(x11)", "sc.w a0,a2,(a1)"),
      (0x08C5A52F, "amoswap.w x10,x12,(x11)", "amoswap.w a0,a2,(a1)"),
      (0x00C5A52F, "amoadd.w x10,x12,(x11)", "amoadd.w a0,a2,(a1)"),
      (0x20C5A52F, "amoxor.w x10,x12,(x11)", "amoxor.w a0,a2,(a1)"),
      (0x60C5A52F, "amoand.w x10,x12,(x11)", "amoand.w a0,a2,(a1)"),
      (0x40C5A52F, "amoor.w x10,x12,(x11)", "amoor.w a0,a2,(a1)"),
      (0x80C5A52F, "amomin.w x10,x12,(x11)", "amomin.w a0,a2,(a1)"),
      (0xA0C5A52F, "amomax.w x10,x12,(x11)", "amomax.w a0,a2,(a1)"),
      (0xC0C5A52F, "amominu.w x10,x12,(x11)", "amominu.w a0,a2,(a1)"),
      (0xE0C5A52F, "amomaxu.w x10,x12,(x11)", "amomaxu.w a0,a2,(a1)")] : List (Word × String × String)).all rendersAs = true := by decide
/-! ### Vectors of 95_test_vectors.md section 2 -/

/-- 2.1, field extractor. -/
theorem test_fields :
    extractFields 0x12345678 = ⟨0x78, 12, 5, 8, 3, 0x09, 0x02⟩ ∧
    extractFields 0x80000001 = ⟨0x01, 0, 0, 0, 0, 0x40, 0x10⟩ ∧
    extractFields 0xFE112E23 = ⟨0x23, 28, 2, 2, 1, 0x7F, 0x1F⟩ := by decide

/-- V-R6 to V-R8, V-M5, V-M6, V-I8, V-I12, V-I13, V-L4 to V-L6, V-S6, V-B7, V-B8, V-J8, V-E4 to V-E7, V-A6, V-A8, V-A9,
V-X1 to V-X7. -/
theorem test_unrecognised :
    ([0x40001033, 0x04000033, 0x80000033, 0x06000033, 0x4200C033, 0x02059513, 0x4245D513, 0x8045D513] ++
      [0x00003503, 0x00006503, 0x00007503, 0x00003023, 0x00002063, 0x00003063, 0x000010E7, 0x00200073, 0x30200073] ++
      [0x10500073, 0x30001073, 0x50C5A52F, 0x00C5B52F, 0x28C5A52F, 0x00000000, 0xFFFFFFFF, 0x0FF0000F, 0x0000100F] ++
      [0x00000001, 0x0000001B, 0x00000007] : List Word).all isUnrecognised = true := by decide

/-- V-S3, V-S5: the store offset is a concatenation. -/
theorem test_store_offset :
    (drives 0x02A11023 true).text = "sh a0,$00000020(sp)" ∧ (drives 0x00000FA3 false).text = "sb x0,$0000001F(x0)" := by decide

/-- V-J2, V-J3, V-J4, V-J7: the destination of jal is `rd`; the odd offset of jalr stands. -/
theorem test_jump_offsets :
    (drives 0xFFFFF06F true).text = "jal zero,*+$FFFFFFFE" ∧ (drives 0x000FF2EF true).text = "jal t0,*+$000FF000" ∧
    (drives 0x800000EF true).text = "jal ra,*+$FFF00000" ∧ (drives 0xFFF500E7 true).text = "jalr ra,$FFFFFFFF(a0)" := by decide

/-- V-A2, V-A3, V-E3: unkeyed bits are not rendered. -/
theorem test_unkeyed_bits :
    (drives 0x1055A52F true).text = "lr.w a0,(a1)" ∧ (drives 0x1EC5A52F true).text = "sc.w a0,a2,(a1)" ∧
    (drives 0x000302F3 true).text = "ecall" := by decide

/-- V-S1: the codes of a whole record. -/
theorem test_record_codes :
    drives 0xFE112E23 true = ⟨extractFields 0xFE112E23, true, 35, 3, 4, 0xFFFFFFFC, "sw ra,$FFFFFFFC(sp)"⟩ := by decide

/-- V-P1, V-P2: `AMOOR_FUNCT5 = 0x0A`. -/
theorem test_amoor_literal :
    (block { Params.default with amoorFunct5 := .literal } ⟨0x50C5A52F, true, false⟩).text = "amoor.w a0,a2,(a1)" ∧
    (block { Params.default with amoorFunct5 := .literal } ⟨0x40C5A52F, true, false⟩).valid = false := by decide

/-- 1.3, the ABI mapping. -/
theorem test_abi_names :
    ([8, 9, 18, 27, 28, 31].map (regname · true), regname 31 false, regname 0 false) =
      (["fp", "s1", "s2", "s11", "t3", "t6"], "x31", "x0") := by decide

/-! ### One step -/

/-- 40_rtype.md R131: the example word, placed by the host's function, gives one line and moves to word 1. -/
theorem test_step_add :
    (after (step (State.reset.withFetchWord 32 0x00C58533))).map (fun t => (t.out.text, t.lines, t.k, t.address)) =
      some ("add x10,x11,x12", [.listed 0 0x00C58533 "add x10,x11,x12"], 1, 4) := by decide

/-- Program P3, word 3: the last word before the address wraps to 0. -/
theorem test_step_wraps :
    (after (step (scanOf 0xFFFFFFF0 (List.replicate 12 0 ++ [0xE3, 0x1A, 0x03, 0xFE]) false 3))).map
        (fun t => (t.lines, t.address)) =
      some ([.listed 0xFFFFFFFC 0xFE031AE3 "bne t1,zero,*+$FFFFFFF4"], 0) := by decide

/-- Scenario S4: a word outside the table gives its placeholder line and the scan goes on. -/
theorem test_step_unrecognised :
    (after (step (scanOf 0 [0x0B, 0, 0, 0, 0x73, 0, 0x10, 0] false 0))).map (fun t => (t.lines, t.address, t.scan)) =
      some ([.listed 0 0x0000000B "???"], 4, .running) := by decide

/-- R55: with suppress-raw-bytes the line is the text alone. -/
theorem test_step_suppressed :
    let s := State.reset.withFetchWord 32 0x00100073
    (after (step { s with par := { s.par with suppressRaw := true } })).map (·.lines) = some [.bare "ebreak"] := by decide

/-- Scenario S5: the trailing bytes of a 6-byte stream give no line, and the next step has nothing left to run. -/
theorem test_step_ends :
    let s := scanOf 0 [0x73, 0x00, 0x10, 0x00, 0x13, 0x00] false 1
    (after (step s)).map (fun t => (t.scan, t.lines, t.k)) = some (.ended, [], 1) ∧
    after (step { s with scan := .ended }) = none := by decide

/-- R57: with a failing source the step reports the error. -/
theorem test_step_fails :
    (after (step (scanOf 0 [0x73] true 0))).map (fun t => (t.reported, t.free)) = some (true, 1) := by decide

/-- R55, D19: a line's characters are those of the LINE_FORMAT given, and the text alone when raw bytes are suppressed. -/
theorem test_line_characters :
    ([Line.listed 4 0x00100073 "ebreak", .bare "ecall"].map (lineText fun a w t => hex8 a ++ ": " ++ hex8 w ++ " " ++ t)) =
      ["00000004: 00100073 ebreak", "ecall"] := by decide

/-- Scenario S5, written out: one line for the one whole word. -/
theorem test_disassemble :
    disassemble (fun _ _ t => t) 0x08 "???" 0 true false false ⟨[0x73, 0x00, 0x10, 0x00, 0x13, 0x00], false⟩ =
      .next ["ebreak"] := rfl

/-- R100, I1, I4: what a launch refuses. -/
theorem test_launch_refuses :
    launch 0x09 "???" 0 false false false ⟨[], false⟩ = .refused (.amoorFunct5NotAllowed 9) ∧
    launch 0x08 "???" (-1) false false false ⟨[], false⟩ = .refused (.baseAddressOutOfRange (-1)) := ⟨rfl, rfl⟩

/-! ### Witnesses: a concrete case meets the hypotheses of each obligation that has any -/

/-- O1: the least and the greatest word of each row. -/
theorem witness_RegisterRegisterWordsDecode :
    rtypeRows.all (fun r => r.value &&& 0xFE00707F == r.value && (r.value ||| 0x01FF8F80) &&& 0xFE00707F == r.value) = true := by decide

/-- O2. -/
theorem witness_MultiplyDivideWordsDecode :
    mextRows.all (fun r => r.value &&& 0xFE00707F == r.value && (r.value ||| 0x01FF8F80) &&& 0xFE00707F == r.value) = true := by decide

/-- O3. -/
theorem witness_RegisterImmediateWordsDecode :
    (itypeRows.take 6).all (fun r => r.value &&& 0x0000707F == r.value && (r.value ||| 0xFFFF8F80) &&& 0x0000707F == r.value) = true := by decide

/-- O4. -/
theorem witness_ImmediateShiftWordsDecode :
    (itypeRows.drop 6).all (fun r => r.value &&& 0xFE00707F == r.value && (r.value ||| 0x01FF8F80) &&& 0xFE00707F == r.value) = true := by decide

/-- O5, O6, O7. -/
theorem witness_LoadStoreBranchWordsDecode :
    (loadRows ++ storeRows ++ branchRows).all (fun r => r.value &&& 0x0000707F == r.value && (r.value ||| 0xFFFF8F80) &&& 0x0000707F == r.value) = true := by decide

/-- O8, each clause. -/
theorem witness_JumpWordsDecode :
    (0xFFFFFFEF : Word) &&& 0x0000007F = 0x0000006F ∧ (0xFFFF8FE7 : Word) &&& 0x0000707F = 0x00000067 := by decide

/-- O9. -/
theorem witness_UpperImmediateWordsDecode :
    (0xFFFFFFB7 : Word) &&& 0x0000007F = 0x00000037 ∧ (0xFFFFFF97 : Word) &&& 0x0000007F = 0x00000017 := by decide

/-- O10, with `rd` and `rs1` nonzero. -/
theorem witness_SystemWordsDecode :
    (0x000F8FF3 : Word) &&& 0xFFF0707F = 0x00000073 ∧ (0x001F8FF3 : Word) &&& 0xFFF0707F = 0x00100073 := by decide

/-- O11, with the ordering bits and every operand at its greatest; the amoor.w clause for both parameters. -/
theorem witness_AtomicWordsDecode :
    (atomicRows .standard ++ atomicRows .literal).all (fun r => (r.value ||| 0x07FF8F80) &&& 0xF800707F == r.value) = true ∧
    (Params.default.amoorFunct5 = .standard ∧ (0x46C5A52F : Word) &&& 0xF800707F = 0x4000202F) ∧
    ({ Params.default with amoorFunct5 := .literal }.amoorFunct5 = AmoorFunct5.literal ∧
      (0x56C5A52F : Word) &&& 0xF800707F = 0x5000202F) := by decide

/-- O20: immediates at the ends of their ranges. -/
theorem witness_DecodeOfEncodeIsTheInstruction :
    (Instr.addi 31 31 0xFFFFF800).wf = true ∧ (Instr.sw 31 0 0x000007FF).wf = true ∧ (Instr.srai 0 31 31).wf = true ∧
    (Instr.bne 31 0 0xFFFFF000).wf = true ∧ (Instr.bne 31 0 0x00000FFE).wf = true ∧ (Instr.lui 31 0xFFFFF000).wf = true ∧
    (Instr.jal 31 0xFFF00000).wf = true ∧ (Instr.jal 0 0x000FFFFE).wf = true ∧ (Instr.lrW 1 2 31 3).wf = true := by decide

/-- O21. -/
theorem witness_EncodeOfDecodeIsTheWord :
    decodeWord .standard 0x1EC5A52F = some (.scW 10 12 11 3) ∧
    decodeWord .literal 0x50C5A52F = some (.amoorW 10 12 11 0) := by decide

/-- O22: a word with a row, one without, and two rows. -/
theorem witness_DispatcherFollowsTheRows :
    (⟨27, 0xFE00707F, 0x40005013⟩ : OpcodeRow) ∈ opcodeRows .standard ∧
    (0x4045D513 : Word) &&& 0xFE00707F = 0x40005013 ∧
    (opcodeRows .standard).all (fun r => (0x4245D513 : Word) &&& r.mask != r.value) = true ∧
    (⟨26, 0xFE00707F, 0x00005013⟩ : OpcodeRow) ∈ opcodeRows .standard ∧
    (⟨26, 0xFE00707F, 0x00005013⟩ : OpcodeRow) ≠ ⟨27, 0xFE00707F, 0x40005013⟩ :=
  ⟨by simp [opcodeRows, itypeRows], by decide, by decide, by simp [opcodeRows, itypeRows], by decide⟩

/-- O24. -/
theorem witness_WordsAreLittleEndian :
    let bytes : List Byte := [0x93, 0x82, 0x02, 0x00, 0xB3, 0x00, 0x31, 0x00, 0x13]
    bytes[4 * 1]? = some 0xB3 ∧ bytes[4 * 1 + 1]? = some 0x00 ∧ bytes[4 * 1 + 2]? = some 0x31 ∧
    bytes[4 * 1 + 3]? = some 0x00 := by decide

/-- O26, O27, O31: a word of each format is recognised; the shifts have their codes. -/
theorem witness_DrivenImmediates :
    ([(0x00C58533, 1), (0x80010093, 2), (0x80A12023, 3), (0x8020D063, 4), (0x80000197, 5), (0x800000EF, 6)] :
        List (Word × BitVec 3)).all (fun e => (drives e.1 true).valid && (drives e.1 true).fmt == e.2) = true ∧
    ((drives 0x01F59513 true).mnem, (drives 0x01F5D513 true).mnem, (drives 0x4015D513 true).mnem) = (25, 26, 27) := by decide

/-- O31: a word of each opcode. -/
theorem witness_FormatFollowsTheOpcode :
    ([0x00C58533, 0xFFF58513, 0xFFF10503, 0x02A10023, 0x00B50463, 0x001000EF, 0x000500E7, 0x80000137, 0x12345197,
      0x00000073, 0x1005A52F] : List Word).all (fun w => (drives w true).valid) = true := by decide

/-- O29, O30: a word of each verdict, with and without operands. -/
theorem witness_UnrecognisedRecordIsFixed :
    (drives 0xFFFFFFFF true).valid = false ∧ (drives 0xE0C5A52F true).valid = true ∧ (drives 0x00100073 true).valid = true ∧
    (drives 0x00100073 true).form = 9 ∧ (drives 0xE0C5A52F true).form ≠ 9 := by decide

/-- O35: the default placeholder. -/
theorem witness_TextIsAtMost26Characters : Params.default.unknownToken = "???" := by decide

/-- O36, each clause, with words that differ. -/
theorem witness_UnkeyedBitsChangeNothingElse :
    ((0x40C5A52F : Word) &&& 0x7F = 0x2F ∧ (0x40C5A52F : Word) &&& 0xF9FFFFFF = (0x46C5A52F : Word) &&& 0xF9FFFFFF) ∧
    ((0x1005A52F : Word) &&& 0xF800707F = 0x1000202F ∧
      (0x1005A52F : Word) &&& 0xF80FFFFF = (0x17F5A52F : Word) &&& 0xF80FFFFF) ∧
    ((0x00000073 : Word) &&& 0xFFF0707F = 0x00000073 ∧
      (0x00000073 : Word) &&& 0xFFF0707F = (0x000F8FF3 : Word) &&& 0xFFF0707F) ∧
    ((0x00100073 : Word) &&& 0xFFF0707F = 0x00100073 ∧
      (0x00100073 : Word) &&& 0xFFF0707F = (0x001F8FF3 : Word) &&& 0xFFF0707F) := by decide

/-- O37: the opcode, a recognised word, and the clauses on `AMOOR_FUNCT5`. -/
theorem witness_AtomicsAreKeyedByFunct5 :
    (extractFields 0x50C5A52F).opcode = 0b0101111 ∧ (extractFields 0x50C5A52F).funct5 = 0x0A ∧
    (extractFields 0x40C5A52F).opcode = 0b0101111 ∧ (extractFields 0x40C5A52F).funct5 = 0x08 ∧
    Params.default.amoorFunct5 = .standard ∧ { Params.default with amoorFunct5 := .literal }.amoorFunct5 = .literal ∧
    (drives 0x40C5A52F true).valid = true := by decide

/-- O38: two registers with equal names exist (each with itself). -/
theorem witness_RegisterNames : regname 31 true = regname 31 true ∧ regname 0 false = regname 0 false := by decide

/-- O39: the greatest word, and the numbers 10 and 4294967295. -/
theorem witness_NumbersAreSpelledExactly :
    hex8 0xFFFFFFFF = "FFFFFFFF" ∧ (10 : Nat) ≠ 0 ∧ dec 10 = "10" ∧ dec 4294967295 = "4294967295" := by decide

/-- O40: two words with one text. -/
theorem witness_TextDeterminesTheWord :
    (drives 0x1005A52F true).valid = true ∧ (drives 0x17F5A52F true).valid = true ∧
    (drives 0x1005A52F true).text = (drives 0x17F5A52F true).text := by decide

/-- O41, O42. -/
theorem witness_StepRunsTheDecodedInstruction :
    let s := scanOf 0 [0x73, 0, 0x10, 0, 0x33, 0x85, 0xC5, 0, 0x13] false 1
    s.scan = .running ∧ pendingBytes s = wordBytes 0x00C58533 ++ [0x13] ∧
    decodeWord s.par.amoorFunct5 0x00C58533 = some (.add 10 11 12) := by decide

/-- O43. -/
theorem witness_UnrecognisedWordNeverStopsTheScan :
    let s := scanOf 0xFFFFFFFC [0x0B, 0, 0, 0, 0x73] false 0
    s.scan = .running ∧ pendingBytes s = wordBytes 0x0000000B ++ [0x73] ∧ decodeWord s.par.amoorFunct5 0x0000000B = none := by
  decide

/-- O44, with three bytes left and with none. -/
theorem witness_ScanEndsWithoutALine :
    ∀ s ∈ [scanOf 0 [0x73, 0, 0x10] false 0, scanOf 0 [0x73, 0, 0x10, 0] false 1],
      s.scan = .running ∧ (pendingBytes s).length < 4 ∧ s.source.failing = false := by decide

/-- O45, with three bytes left and with none. -/
theorem witness_InputErrorIsFatal :
    ∀ s ∈ [scanOf 0 [0x73, 0, 0x10] true 0, scanOf 0 [] true 0],
      s.scan = .running ∧ (pendingBytes s).length < 4 ∧ s.source.failing = true := by decide

/-- O46: a running machine, an ended one and a failed one. -/
theorem witness_StepAnswersExactlyWhileRunning :
    State.reset.scan = .running ∧ { State.reset with scan := .ended }.scan ≠ .running ∧
    { State.reset with scan := .failed 1 }.scan ≠ .running := by decide

/-- O47. -/
theorem witness_StepKeepsTheConfiguration : ∃ t, step (scanOf 0 [0x73, 0, 0x10, 0] false 0) = .next t ∧ t.k = 1 :=
  ⟨_, rfl, rfl⟩

/-- O49: different places, different bytes to come. -/
theorem witness_OutputsDependOnTheWordAlone :
    let s := scanOf 0 [0x33, 0x85, 0xC5, 0, 0x13] false 0
    let s' := scanOf 0 [0x73, 0, 0x10, 0, 0x33, 0x85, 0xC5, 0] false 1
    s.scan = .running ∧ s'.scan = .running ∧ s.par = s'.par ∧ s.inp.abi = s'.inp.abi ∧
    pendingBytes s = wordBytes 0x00C58533 ++ [0x13] ∧ pendingBytes s' = wordBytes 0x00C58533 ++ [] := by decide

/-- A scan of seven bytes, one word read. -/
def midScan (failing : Bool) : State :=
  { scanOf 0x1000 [0x73, 0, 0x10, 0, 0x13, 0, 0] failing 1 with
    inp := ⟨0x00100073, true, false⟩, out := drives 0x00100073 true, lines := [.listed 0x1000 0x00100073 "ebreak"] }

/-- O51: a scan in its middle, before its clean end and before its error, meets the invariant and takes a step. -/
theorem witness_StepKeepsTheInvariant :
    Inv (midScan false) ∧ Inv (midScan true) ∧ (∃ t, step (midScan false) = .next t) ∧ ∃ t, step (midScan true) = .next t :=
  ⟨⟨rfl, show _ ∧ _ ∧ _ from ⟨by decide, by decide, rfl⟩⟩, ⟨rfl, show _ ∧ _ ∧ _ from ⟨by decide, by decide, rfl⟩⟩,
    ⟨_, rfl⟩, ⟨_, rfl⟩⟩

/-- O53, O54: launches at the ends of the base address's range, with each `AMOOR_FUNCT5`. -/
theorem witness_LaunchStartsTheScan :
    (∃ s, launch 0x0A "bad" 4294967295 true true true ⟨[1], true⟩ = .next s) ∧
    ∃ s, launch 0x08 "???" 0 false false false ⟨[], false⟩ = .next s := ⟨⟨_, rfl⟩, ⟨_, rfl⟩⟩

/-- O53: what is not allowed, one parameter at a time, at the ends of the ranges. -/
theorem witness_LaunchRefusesExactlyWhatIsNotAllowed :
    ∀ e ∈ ([(0x09, 0), (0x08, -1), (0x0A, 4294967296)] : List (Nat × Int)),
      ¬((e.1 = 0x08 ∨ e.1 = 0x0A) ∧ 0 ≤ e.2 ∧ e.2 < 2 ^ 32) := by decide

/-- O58: a launch with a source that does not fail. -/
theorem witness_ListingLineOfEachWord :
    ∃ s, launch 0x08 "???" 4294967292 true false false ⟨[0x73, 0, 0x10, 0, 0x13], false⟩ = .next s := ⟨_, rfl⟩

/-- O57, for a good source and a failing one. -/
theorem witness_WholeScanListsEveryWordAndEnds :
    AtStart (scanOf 0 [0x73, 0, 0x10, 0, 0x13, 0] false 0) ∧ (scanOf 0 [0x73, 0, 0x10, 0, 0x13, 0] false 0).source.failing = false ∧
    AtStart (scanOf 0 [0x73, 0, 0x10, 0] true 0) ∧ (scanOf 0 [0x73, 0, 0x10, 0] true 0).source.failing = true :=
  ⟨⟨rfl, rfl, rfl, rfl⟩, rfl, ⟨rfl, rfl, rfl, rfl⟩, rfl⟩

/-- O59: an order that is not the stream's. -/
theorem witness_AnyDecodingOrderGivesTheListing :
    [2, 0, 1].Perm (List.range (([0x73, 0, 0x10, 0, 0x13, 0, 0, 0, 0x33, 0x85, 0xC5, 0, 7] : List Byte).length / 4)) := by decide

end Sys2Proof.Tests
end

section
/-! SUPPORT. The record as a function of the word and the naming mode: its fields, its shape and its text. -/

namespace Sys2Proof.Machine

open Sys2Proof.Claims

/-! ### The fields (R24) -/

/-- The field outputs do not depend on the verdict. -/
@[simp] theorem block_fields (par : Params) (inp : Inputs) : (block par inp).fields = extractFields inp.insn := by
  cases h : decodeWord par.amoorFunct5 inp.insn with
  | some i => rw [block_of_some h, recordOf_fields]
  | none => rw [block_of_none h]; rfl

/-- The unrecognised verdict comes with the unrecognised record, and with no other. -/
theorem block_of_not_valid {par : Params} {inp : Inputs} (h : (block par inp).valid = false) :
    block par inp = unrecognisedOut par inp := by
  rw [block_valid, Option.isSome_eq_false_iff, Option.isNone_iff_eq_none] at h
  exact block_of_none h

/-- The recognised verdict comes from an instruction the dispatcher found, and with its record. -/
theorem exists_recordOf_of_valid {par : Params} {inp : Inputs} (h : (block par inp).valid = true) :
    ∃ i, decodeWord par.amoorFunct5 inp.insn = some i ∧ block par inp = recordOf i inp := by
  rw [block_valid, Option.isSome_iff_exists] at h
  obtain ⟨i, hi⟩ := h
  exact ⟨i, hi, block_of_some hi⟩

/-! ### The shape of a recognised record (R25, R26) -/

/-- Each instruction fixes a code of the table of R26 with its spelling, a format, an operand layout and an immediate; its
record is the recognised one with these, whatever the ports hold. -/
theorem recordOf_shape (i : Instr) : ∃ code mn fmt ops imm,
    (∀ inp, recordOf i inp = recognisedOut inp code mn fmt ops imm) ∧
      1 ≤ code.toNat ∧ code.toNat ≤ 58 ∧ mnemonics[code.toNat - 1]? = some mn := by
  cases i <;> exact ⟨_, _, _, _, _, fun _ => rfl, by decide, by decide, rfl⟩

/-- R33: of the input ports a recognised record reads the word and the naming mode only. -/
theorem recordOf_congr (i : Instr) {inp inp' : Inputs} (hw : inp.insn = inp'.insn) (ha : inp.abi = inp'.abi) :
    recordOf i inp = recordOf i inp' := by
  obtain ⟨code, mn, fmt, ops, imm, hi, -⟩ := recordOf_shape i
  rw [hi, hi, recognisedOut, recognisedOut, hw, ha]

/-- R23, R33: the outputs are a function of the word and the naming mode. -/
theorem block_congr (par : Params) {inp inp' : Inputs} (hw : inp.insn = inp'.insn) (ha : inp.abi = inp'.abi) :
    block par inp = block par inp' := by
  cases h : decodeWord par.amoorFunct5 inp.insn with
  | some i => rw [block_of_some h, block_of_some (hw ▸ h), recordOf_congr i hw ha]
  | none => rw [block_of_none h, block_of_none (hw ▸ h), unrecognisedOut, unrecognisedOut, hw]

/-! ### The text of a recognised record (R110, R111) -/

/-- R111: no operands are rendered for NOOPS, and for no other layout. -/
theorem operandText_eq_none (abi : Bool) (imm : Word) (ops : Operands) :
    operandText abi imm ops = none ↔ ops = .noops := by
  cases ops <;> simp [operandText]

/-- R28: NOOPS is the one layout of form 9. -/
theorem formCode_operandsForm_eq_nine (ops : Operands) : formCode (operandsForm ops) = 9 ↔ ops = .noops := by
  cases ops <;> simp [operandsForm, formCode]

theorem renderText_of_none {abi : Bool} {imm : Word} {ops : Operands} (h : operandText abi imm ops = none) (mn : String) :
    renderText mn abi imm ops = mn := by
  rw [renderText, h]

theorem renderText_of_some {abi : Bool} {imm : Word} {ops : Operands} {t : String} (h : operandText abi imm ops = some t)
    (mn : String) : renderText mn abi imm ops = mn ++ (" " ++ t) := by
  simp [renderText, h, String.append_assoc]

/-- R110: the text is the mnemonic, followed by nothing in form 9 and by a space and the operands in every other form. -/
theorem exists_renderText_eq_append (mn : String) (abi : Bool) (imm : Word) (ops : Operands) :
    ∃ t, renderText mn abi imm ops = mn ++ t ∧ (t = "" ↔ formCode (operandsForm ops) = 9) ∧
      (formCode (operandsForm ops) ≠ 9 → ∃ operands, t = " " ++ operands) := by
  rw [ne_eq, formCode_operandsForm_eq_nine, ← operandText_eq_none abi imm]
  cases h : operandText abi imm ops with
  | none => exact ⟨"", by simp [renderText_of_none h], by simp, by simp⟩
  | some t => exact ⟨" " ++ t, renderText_of_some h mn, by simp, fun _ => ⟨t, rfl⟩⟩

/-! ### Register names (R36 to R38) -/

theorem dec_eq_repr (n : Nat) : dec n = n.repr := Nat.repr_eq_ofList_toDigits.symm

/-- R12: two numbers with the same decimal digits are the same. -/
theorem dec_injective : Function.Injective dec := fun m n h => by
  rwa [dec_eq_repr, dec_eq_repr, Nat.repr_inj] at h

theorem regname_false (n : Reg) : regname n false = "x" ++ dec n.toNat := rfl

/-- R38: the ABI name is the table's entry at the index. -/
theorem abiNames_getElem? (n : Reg) : abiNames.toList[n.toNat]? = some (regname n true) := by
  have hn : n.toNat < abiNames.toList.length := n.isLt
  rw [List.getElem?_eq_getElem hn]
  rfl

theorem abiNames_nodup : abiNames.toList.Nodup := by decide

/-- In either mode a name belongs to one register. -/
theorem regname_injective (abi : Bool) : Function.Injective (regname · abi) := fun m n h => by
  apply BitVec.eq_of_toNat_eq
  cases abi with
  | false => exact dec_injective ((String.append_right_inj "x").mp h)
  | true =>
    have hm : m.toNat < abiNames.toList.length := m.isLt
    refine (List.getElem?_inj hm abiNames_nodup).mp ?_
    rw [abiNames_getElem?, abiNames_getElem?]
    exact congrArg some h

end Sys2Proof.Machine
end

section
/-! SUPPORT. A run with another `pseudo_i` (R33): every operation of the environment commutes with changing the flag. -/

namespace Sys2Proof.Machine

open Sys2Proof.Claims

theorem emitLine_withPseudo (p : Bool) (s : State) : emitLine (withPseudo p s) = withPseudo p (emitLine s) := rfl

theorem finishScan_withPseudo (p : Bool) (s : State) : finishScan (withPseudo p s) = withPseudo p (finishScan s) :=
  (apply_ite (withPseudo p) (s.source.failing = true) (failScan s) (endScan s)).symm

/-- The outputs follow the flag's change with no change of their own. -/
theorem redrive_withPseudo (p : Bool) (w : Word) (s : State) :
    redrive { (withPseudo p s).inp with insn := w } (withPseudo p s) =
      withPseudo p (redrive { s.inp with insn := w } s) :=
  congrArg (fun o => { s with inp := ⟨w, s.inp.abi, p⟩, out := o })
    (block_congr s.par (inp := ⟨w, s.inp.abi, p⟩) (inp' := { s.inp with insn := w }) rfl rfl)

/-- R33: a step with the other flag gives the same outcome with that flag. -/
theorem step_withPseudo (p : Bool) (s : State) : step (withPseudo p s) = outcomeWithPseudo p (step s) := by
  by_cases hr : s.scan = .running
  · by_cases hb : 4 ≤ (pendingBytes s).length
    · obtain ⟨w, rest, hw⟩ := exists_wordBytes_append hb
      rw [step_of_word hr hw, step_of_word (s := withPseudo p s) hr hw, redrive_withPseudo, emitLine_withPseudo]
      rfl
    · have hn : (pendingBytes s).length < 4 := by omega
      rw [step_of_noWord hr hn, step_of_noWord (s := withPseudo p s) hr hn, finishScan_withPseudo]
      rfl
  · rw [step_of_terminated hr, step_of_terminated (s := withPseudo p s) hr]
    rfl

/-! ### A run, by what its first step answers -/

theorem run_succ_of_next {s t : State} (n : Nat) (h : step s = .next t) : core.run (n + 1) s = core.run n t := by
  have h' : core.step s = .next t := h
  simp only [Host.Core.run, h']

theorem run_succ_of_fault {s : State} {f : Fault} (n : Nat) (h : step s = .fault f) : core.run (n + 1) s = .fault f := by
  have h' : core.step s = .fault f := h
  simp only [Host.Core.run, h']

theorem run_succ_of_refused {s : State} {r : Refusal} (n : Nat) (h : step s = .refused r) :
    core.run (n + 1) s = .refused r := by
  have h' : core.step s = .refused r := h
  simp only [Host.Core.run, h']

/-- R33 over a run of any length. -/
theorem run_withPseudo (p : Bool) (n : Nat) (s : State) :
    core.run n (withPseudo p s) = outcomeWithPseudo p (core.run n s) := by
  induction n generalizing s with
  | zero => rfl
  | succ n ih =>
    have hp := step_withPseudo p s
    cases h : step s with rw [h] at hp
    | next t => rw [run_succ_of_next n hp, run_succ_of_next n h, ih]
    | fault f => rw [run_succ_of_fault n hp, run_succ_of_fault n h]; rfl
    | refused r => rw [run_succ_of_refused n hp, run_succ_of_refused n h]; rfl

end Sys2Proof.Machine
end

section
/-! The statements of 10_state.md. -/

namespace Sys2Proof.Proofs

open Sys2Proof.Machine Sys2Proof.Claims

/-- Settles O28: the fields are those of the word under either verdict, and each is a run of its bits. -/
theorem fieldOutputsFollowTheWord : Obligations.FieldOutputsFollowTheWord := by
  intro par inp
  simp only [block_fields, extractFields, BitVec.extractLsb'_toNat, Nat.shiftRight_eq_div_pow, pow_zero, Nat.div_one,
    and_self]

/-- Settles O29: `valid_o` 0 comes with the unrecognised record alone. -/
theorem unrecognisedRecordIsFixed : Obligations.UnrecognisedRecordIsFixed := by
  intro par inp h
  exact block_of_not_valid h

/-- Settles O30, by the shape of each instruction's record and R110's cases of the text. -/
theorem mnemonicCodesAndSpellings : Obligations.MnemonicCodesAndSpellings := by
  intro par inp
  constructor
  · intro h
    exact congrArg Out.mnem (block_of_not_valid h)
  · intro h
    obtain ⟨i, -, hb⟩ := exists_recordOf_of_valid h
    obtain ⟨code, mn, fmt, ops, imm, hi, hlo, hhi, hmn⟩ := recordOf_shape i
    obtain ⟨t, ht⟩ := exists_renderText_eq_append mn inp.abi imm ops
    rw [hb, hi]
    exact ⟨hlo, hhi, mn, t, hmn, ht⟩

/-- Settles O33: the block reads the word and the naming mode only, and so every run commutes with a change of the flag. -/
theorem pseudoFlagIsUnobservable : Obligations.PseudoFlagIsUnobservable :=
  ⟨fun par _ _ _ _ => block_congr par rfl rfl, fun n s p => run_withPseudo p n s⟩

/-- Settles O49: both steps drive the record of the same word under the same parameters and naming mode. -/
theorem outputsDependOnTheWordAlone : Obligations.OutputsDependOnTheWordAlone := by
  intro s s' w rest rest' hr hr' hpar habi hb hb'
  refine ⟨_, _, step_of_word hr hb, step_of_word hr' hb', ?_⟩
  rw [emitLine_out, emitLine_out, redrive_out, redrive_out, ← hpar]
  exact block_congr s.par rfl habi

/-- Settles O38: the names are those of the two tables, and a name determines its index. -/
theorem registerNames : Obligations.RegisterNames :=
  ⟨fun n => ⟨regname_false n, abiNames_getElem? n⟩, fun _ _ abi h => regname_injective abi h⟩

end Sys2Proof.Proofs
end

section
/-! SUPPORT. The words of a stream at any word index (R52), and the addresses of words (R53). -/

namespace Sys2Proof.Machine

/-! ### The words of a stream (R52) -/

/-- Four bytes further on is one word further on, a stream too short for a word included. -/
theorem wordsOf_drop_four (bytes : List Byte) : wordsOf (bytes.drop 4) = (wordsOf bytes).tail := by
  match bytes with
  | [] | [_] | [_, _] | [_, _, _] => rfl
  | _ :: _ :: _ :: _ :: _ => rfl

/-- Word `k` begins at byte `4*k`: the words of the bytes from there on are those from word `k` on. -/
theorem wordsOf_drop (k : Nat) (bytes : List Byte) : wordsOf (bytes.drop (4 * k)) = (wordsOf bytes).drop k := by
  induction k with
  | zero => rfl
  | succ k ih => rw [Nat.mul_succ, ← List.drop_drop, wordsOf_drop_four, ih, List.tail_drop]

/-- The first word of a stream is assembled from its first four bytes. -/
theorem head?_wordsOf {bytes : List Byte} {b0 b1 b2 b3 : Byte} (h0 : bytes[0]? = some b0) (h1 : bytes[1]? = some b1)
    (h2 : bytes[2]? = some b2) (h3 : bytes[3]? = some b3) :
    (wordsOf bytes).head? = some (assembleWord b0 b1 b2 b3) := by
  match bytes with
  | [] | [_] | [_, _] | [_, _, _] => simp at h3
  | _ :: _ :: _ :: _ :: _ =>
    cases h0; cases h1; cases h2; cases h3
    rfl

/-- R52: word `k` is assembled from bytes `4*k` to `4*k + 3`. -/
theorem getElem?_wordsOf {bytes : List Byte} {k : Nat} {b0 b1 b2 b3 : Byte} (h0 : bytes[4 * k]? = some b0)
    (h1 : bytes[4 * k + 1]? = some b1) (h2 : bytes[4 * k + 2]? = some b2) (h3 : bytes[4 * k + 3]? = some b3) :
    (wordsOf bytes)[k]? = some (assembleWord b0 b1 b2 b3) := by
  rw [← List.head?_drop, ← wordsOf_drop]
  apply head?_wordsOf <;> rwa [List.getElem?_drop]

/-! ### Addresses (R53) -/

/-- R53: addresses are reduced modulo `2^32`, for a word index of any size. -/
theorem toNat_wordAddress (par : Params) (k : Nat) :
    (wordAddress par k).toNat = (par.baseAddress.toNat + 4 * k) % 2 ^ 32 := by
  rw [wordAddress, BitVec.toNat_add, BitVec.toNat_ofNat, Nat.add_mod_mod]

theorem wordAddress_succ (par : Params) (k : Nat) : wordAddress par (k + 1) = wordAddress par k + 4 := by
  rw [wordAddress, wordAddress, Nat.mul_succ, BitVec.ofNat_add, BitVec.add_assoc]
  rfl

end Sys2Proof.Machine
end

section
/-! The statements of 20_memory.md. -/

namespace Sys2Proof.Proofs

open Sys2Proof.Machine

/-- Settles O24: dropping four bytes drops one word, and the first word is that of the first four bytes. -/
theorem wordsAreLittleEndian : Obligations.WordsAreLittleEndian :=
  fun bytes => ⟨length_wordsOf bytes, fun _ _ _ _ _ => getElem?_wordsOf⟩

/-- Settles O42: with a whole word left, `emitLine` after `redrive` is the state described, under either verdict. -/
theorem stepEmitsOneLinePerWord : Obligations.StepEmitsOneLinePerWord := by
  intro s w rest hr hb
  exact step_of_word hr hb

/-- Settles O50, by the sum of the base and `4*k` taken modulo `2^32`. -/
theorem addressesAdvanceByFour : Obligations.AddressesAdvanceByFour :=
  fun par k => ⟨toNat_wordAddress par k, wordAddress_succ par k⟩

end Sys2Proof.Proofs
end

section
/-! SUPPORT. The decoder against the encoder: what it reads encodes the word, so it drops no bit (R72 to R86). -/

namespace Sys2Proof

/-! ### A word from its fields and immediates (R72 to R78) -/

section
variable {w : Word} {op f7 : BitVec 7} {f3 : BitVec 3} {f5 : BitVec 5}

theorem encodeR_of_fields (h7 : (extractFields w).funct7 = f7) (h3 : (extractFields w).funct3 = f3)
    (ho : (extractFields w).opcode = op) :
    encodeR f7 (extractFields w).rs2 (extractFields w).rs1 f3 (extractFields w).rd op = w := by
  subst h7 h3 ho
  apply BitVec.eq_of_getLsbD_eq
  intro j hj
  interval_cases j <;> simp [encodeR, extractFields]

theorem encodeA_of_fields (h5 : (extractFields w).funct5 = f5) (h3 : (extractFields w).funct3 = f3)
    (ho : (extractFields w).opcode = op) :
    encodeA f5 (orderBits w) (extractFields w).rs2 (extractFields w).rs1 f3 (extractFields w).rd op = w := by
  subst h5 h3 ho
  apply BitVec.eq_of_getLsbD_eq
  intro j hj
  interval_cases j <;> simp [encodeA, orderBits, extractFields]

theorem encodeI_of_fields {imm : Word} (hi : imm.extractLsb' 0 12 = w.extractLsb' 20 12)
    (h3 : (extractFields w).funct3 = f3) (ho : (extractFields w).opcode = op) :
    encodeI imm (extractFields w).rs1 f3 (extractFields w).rd op = w := by
  subst h3 ho
  rw [encodeI, hi]
  apply BitVec.eq_of_getLsbD_eq
  intro j hj
  interval_cases j <;> simp [extractFields]

/-- R81: the low 12 bits of the I immediate are `insn[31:20]`. -/
theorem extractLsb'_immI (w : Word) : (immI w).extractLsb' 0 12 = w.extractLsb' 20 12 := by
  ext j hj
  rw [BitVec.getElem_extractLsb', getLsbD_immI _ _ (by omega)]
  simp [hj]

theorem encodeShift_of_fields (h7 : (extractFields w).funct7 = f7) (h3 : (extractFields w).funct3 = f3)
    (ho : (extractFields w).opcode = op) :
    encodeShift f7 (immSH w) (extractFields w).rs1 f3 (extractFields w).rd op = w := by
  subst h7 h3 ho
  apply BitVec.eq_of_getLsbD_eq
  intro j hj
  interval_cases j <;> simp [-BitVec.getLsbD_eq_getElem, encodeShift, getLsbD_immSH, extractFields]

theorem encodeS_of_fields (h3 : (extractFields w).funct3 = f3) (ho : (extractFields w).opcode = op) :
    encodeS (immS w) (extractFields w).rs2 (extractFields w).rs1 f3 op = w := by
  subst h3 ho
  apply BitVec.eq_of_getLsbD_eq
  intro j hj
  interval_cases j <;> simp [-BitVec.getLsbD_eq_getElem, encodeS, getLsbD_immS, extractFields]

theorem encodeB_of_fields (h3 : (extractFields w).funct3 = f3) (ho : (extractFields w).opcode = op) :
    encodeB (immB w) (extractFields w).rs2 (extractFields w).rs1 f3 op = w := by
  subst h3 ho
  apply BitVec.eq_of_getLsbD_eq
  intro j hj
  interval_cases j <;> simp [-BitVec.getLsbD_eq_getElem, encodeB, getLsbD_immB, extractFields]

theorem encodeU_of_fields (ho : (extractFields w).opcode = op) : encodeU (immU w) (extractFields w).rd op = w := by
  subst ho
  apply BitVec.eq_of_getLsbD_eq
  intro j hj
  interval_cases j <;> simp [-BitVec.getLsbD_eq_getElem, encodeU, getLsbD_immU, extractFields]

theorem encodeJ_of_fields (ho : (extractFields w).opcode = op) : encodeJ (immJ w) (extractFields w).rd op = w := by
  subst ho
  apply BitVec.eq_of_getLsbD_eq
  intro j hj
  interval_cases j <;> simp [-BitVec.getLsbD_eq_getElem, encodeJ, getLsbD_immJ, extractFields]

end

/-! ### What the decoder reads encodes the word, decoder by decoder -/

section
variable {a : AmoorFunct5} {w : Word} {i : Instr}

theorem encode_of_decodeOp (ho : (extractFields w).opcode = 0b0110011) (h : decodeOp (extractFields w) = some i) :
    encode a i = w := by
  unfold decodeOp at h
  split at h <;> cases h <;> exact encodeR_of_fields ‹_› ‹_› ho

theorem eq_seven_of_ne (x : BitVec 3) : x ≠ 0 → x ≠ 1 → x ≠ 2 → x ≠ 3 → x ≠ 4 → x ≠ 5 → x ≠ 6 → x = 7 := by
  intros
  bv_omega

theorem encode_of_decodeOpImm (ho : (extractFields w).opcode = 0b0010011)
    (h : decodeOpImm w (extractFields w) = some i) : encode a i = w := by
  unfold decodeOpImm at h
  split at h
  case h_2 h3 =>
    split at h <;> cases h
    exact encodeShift_of_fields ‹_› h3 ho
  case h_6 h3 =>
    split at h
    · cases h
      exact encodeShift_of_fields ‹_› h3 ho
    · split at h <;> cases h
      exact encodeShift_of_fields ‹_› h3 ho
  case h_8 =>
    cases h
    exact encodeI_of_fields (extractLsb'_immI w) (eq_seven_of_ne _ ‹_› ‹_› ‹_› ‹_› ‹_› ‹_› ‹_›) ho
  all_goals
    cases h
    exact encodeI_of_fields (extractLsb'_immI w) ‹_› ho

theorem encode_of_decodeLoad (ho : (extractFields w).opcode = 0b0000011)
    (h : decodeLoad w (extractFields w) = some i) : encode a i = w := by
  unfold decodeLoad at h
  split at h <;> cases h <;> exact encodeI_of_fields (extractLsb'_immI w) ‹_› ho

theorem encode_of_decodeStore (ho : (extractFields w).opcode = 0b0100011)
    (h : decodeStore w (extractFields w) = some i) : encode a i = w := by
  unfold decodeStore at h
  split at h <;> cases h <;> exact encodeS_of_fields ‹_› ho

theorem encode_of_decodeBranch (ho : (extractFields w).opcode = 0b1100011)
    (h : decodeBranch w (extractFields w) = some i) : encode a i = w := by
  unfold decodeBranch at h
  split at h <;> cases h <;> exact encodeB_of_fields ‹_› ho

theorem encode_of_decodeSystem (ho : (extractFields w).opcode = 0b1110011)
    (h : decodeSystem w (extractFields w) = some i) : encode a i = w := by
  unfold decodeSystem at h
  split at h
  case isFalse => cases h
  case isTrue h3 => split at h <;> cases h <;> exact encodeI_of_fields (Eq.symm ‹_›) h3 ho

theorem encode_of_decodeAtomic (ho : (extractFields w).opcode = 0b0101111)
    (h : decodeAtomic a w (extractFields w) = some i) : encode a i = w := by
  unfold decodeAtomic at h
  split at h
  case isFalse => cases h
  case isTrue h3 =>
    split at h
    case h_11 =>
      split at h <;> cases h
      exact encodeA_of_fields ‹_› h3 ho
    all_goals
      cases h
      exact encodeA_of_fields ‹_› h3 ho

/-- Decoding drops no bit of the word. -/
theorem encode_of_decodeWord (h : decodeWord a w = some i) : encode a i = w := by
  unfold decodeWord at h
  dsimp only at h
  split at h
  case h_1 ho => exact encode_of_decodeOp ho h
  case h_2 ho => exact encode_of_decodeOpImm ho h
  case h_3 ho => exact encode_of_decodeLoad ho h
  case h_4 ho => exact encode_of_decodeStore ho h
  case h_5 ho => exact encode_of_decodeBranch ho h
  case h_6 ho => cases h; exact encodeJ_of_fields ho
  case h_7 ho =>
    split at h <;> cases h
    exact encodeI_of_fields (extractLsb'_immI w) ‹_› ho
  case h_8 ho => cases h; exact encodeU_of_fields ho
  case h_9 ho => cases h; exact encodeU_of_fields ho
  case h_10 ho => exact encode_of_decodeSystem ho h
  case h_11 ho => exact encode_of_decodeAtomic ho h
  case h_12 => cases h

end

/-! ### Masked words -/

/-- A field all of whose bits are in the mask is that of the masked word. -/
theorem extractLsb'_of_masked {w m v : Word} (h : w &&& m = v) {lo n : Nat} (hm : m.extractLsb' lo n = BitVec.allOnes n) :
    w.extractLsb' lo n = v.extractLsb' lo n := by
  have hw : w.extractLsb' lo n &&& m.extractLsb' lo n = v.extractLsb' lo n := by
    ext j hj
    simp [← h]
  rwa [hm, BitVec.and_allOnes] at hw

/-- Two words that agree under a mask have the same fields within it. -/
theorem extractLsb'_eq_of_masked {w w' m : Word} (h : w &&& m = w' &&& m) {lo n : Nat}
    (hm : m.extractLsb' lo n = BitVec.allOnes n) : w.extractLsb' lo n = w'.extractLsb' lo n :=
  (extractLsb'_of_masked h hm).trans (extractLsb'_of_masked rfl hm).symm

end Sys2Proof
end

section
/-! SUPPORT. The rows of the opcode table (R90, R102): every instruction has its row, a word that matches a row is
recognised, and no word matches two. -/

namespace Sys2Proof.Laws.RowKey

/-- The word of every instruction matches a row with the instruction's code. -/
theorem statement : ∀ i : Instr, Statement i
  | .add rd rs1 rs2 => add rd rs1 rs2
  | .sub rd rs1 rs2 => sub rd rs1 rs2
  | .sll rd rs1 rs2 => sll rd rs1 rs2
  | .slt rd rs1 rs2 => slt rd rs1 rs2
  | .sltu rd rs1 rs2 => sltu rd rs1 rs2
  | .xor rd rs1 rs2 => xor rd rs1 rs2
  | .srl rd rs1 rs2 => srl rd rs1 rs2
  | .sra rd rs1 rs2 => sra rd rs1 rs2
  | .or rd rs1 rs2 => or rd rs1 rs2
  | .and rd rs1 rs2 => and rd rs1 rs2
  | .mul rd rs1 rs2 => mul rd rs1 rs2
  | .mulh rd rs1 rs2 => mulh rd rs1 rs2
  | .mulhsu rd rs1 rs2 => mulhsu rd rs1 rs2
  | .mulhu rd rs1 rs2 => mulhu rd rs1 rs2
  | .div rd rs1 rs2 => div rd rs1 rs2
  | .divu rd rs1 rs2 => divu rd rs1 rs2
  | .rem rd rs1 rs2 => rem rd rs1 rs2
  | .remu rd rs1 rs2 => remu rd rs1 rs2
  | .addi rd rs1 imm => addi rd rs1 imm
  | .slti rd rs1 imm => slti rd rs1 imm
  | .sltiu rd rs1 imm => sltiu rd rs1 imm
  | .xori rd rs1 imm => xori rd rs1 imm
  | .ori rd rs1 imm => ori rd rs1 imm
  | .andi rd rs1 imm => andi rd rs1 imm
  | .slli rd rs1 imm => slli rd rs1 imm
  | .srli rd rs1 imm => srli rd rs1 imm
  | .srai rd rs1 imm => srai rd rs1 imm
  | .lb rd rs1 imm => lb rd rs1 imm
  | .lh rd rs1 imm => lh rd rs1 imm
  | .lw rd rs1 imm => lw rd rs1 imm
  | .lbu rd rs1 imm => lbu rd rs1 imm
  | .lhu rd rs1 imm => lhu rd rs1 imm
  | .sb rs2 rs1 imm => sb rs2 rs1 imm
  | .sh rs2 rs1 imm => sh rs2 rs1 imm
  | .sw rs2 rs1 imm => sw rs2 rs1 imm
  | .beq rs1 rs2 imm => beq rs1 rs2 imm
  | .bne rs1 rs2 imm => bne rs1 rs2 imm
  | .blt rs1 rs2 imm => blt rs1 rs2 imm
  | .bge rs1 rs2 imm => bge rs1 rs2 imm
  | .bltu rs1 rs2 imm => bltu rs1 rs2 imm
  | .bgeu rs1 rs2 imm => bgeu rs1 rs2 imm
  | .jal rd imm => jal rd imm
  | .jalr rd rs1 imm => jalr rd rs1 imm
  | .lui rd imm => lui rd imm
  | .auipc rd imm => auipc rd imm
  | .ecall rd rs1 => ecall rd rs1
  | .ebreak rd rs1 => ebreak rd rs1
  | .lrW rd rs1 rs2 order => lrW rd rs1 rs2 order
  | .scW rd rs2 rs1 order => scW rd rs2 rs1 order
  | .amoswapW rd rs2 rs1 order => amoswapW rd rs2 rs1 order
  | .amoaddW rd rs2 rs1 order => amoaddW rd rs2 rs1 order
  | .amoxorW rd rs2 rs1 order => amoxorW rd rs2 rs1 order
  | .amoandW rd rs2 rs1 order => amoandW rd rs2 rs1 order
  | .amoorW rd rs2 rs1 order => amoorW rd rs2 rs1 order
  | .amominW rd rs2 rs1 order => amominW rd rs2 rs1 order
  | .amomaxW rd rs2 rs1 order => amomaxW rd rs2 rs1 order
  | .amominuW rd rs2 rs1 order => amominuW rd rs2 rs1 order
  | .amomaxuW rd rs2 rs1 order => amomaxuW rd rs2 rs1 order
end Sys2Proof.Laws.RowKey

namespace Sys2Proof

open Sys2Proof.Machine

/-! ### A word that matches a row is recognised (R91 to R100), family by family -/

section
variable {a : AmoorFunct5} {w : Word} {r : OpcodeRow} (hw : w &&& r.mask = r.value)
include hw

theorem funct3_of_row (hm : r.mask.extractLsb' 12 3 = BitVec.allOnes 3) :
    (extractFields w).funct3 = r.value.extractLsb' 12 3 := extractLsb'_of_masked hw hm

theorem funct7_of_row (hm : r.mask.extractLsb' 25 7 = BitVec.allOnes 7) :
    (extractFields w).funct7 = r.value.extractLsb' 25 7 := extractLsb'_of_masked hw hm

theorem funct5_of_row (hm : r.mask.extractLsb' 27 5 = BitVec.allOnes 5) :
    (extractFields w).funct5 = r.value.extractLsb' 27 5 := extractLsb'_of_masked hw hm

/-- Every row keys the opcode. -/
theorem opcode_of_row (hr : r ∈ opcodeRows a) : (extractFields w).opcode = r.value.extractLsb' 0 7 := by
  have hm : ∀ r ∈ opcodeRows a, r.mask.extractLsb' 0 7 = BitVec.allOnes 7 := by cases a <;> decide
  exact extractLsb'_of_masked hw (hm r hr)

variable (ho : (extractFields w).opcode = r.value.extractLsb' 0 7)
include ho

theorem isSome_of_opRow (hr : r ∈ rtypeRows ++ mextRows) : (decodeWord a w).isSome := by
  fin_cases hr <;>
    (rw [decodeWord, ho, decodeOp, funct7_of_row hw (by decide), funct3_of_row hw (by decide)]; rfl)

/-- R93: the first six rows are keyed by funct3, the three shifts by funct7 too. -/
theorem isSome_of_opImmRow (hr : r ∈ itypeRows) : (decodeWord a w).isSome := by
  rcases List.mem_append.mp (show r ∈ itypeRows.take 6 ++ itypeRows.drop 6 from hr) with h | h
  · fin_cases h <;> (rw [decodeWord, ho, decodeOpImm, funct3_of_row hw (by decide)]; rfl)
  · fin_cases h <;>
      (rw [decodeWord, ho, decodeOpImm, funct3_of_row hw (by decide), funct7_of_row hw (by decide)]; rfl)

theorem isSome_of_loadRow (hr : r ∈ loadRows) : (decodeWord a w).isSome := by
  fin_cases hr <;> (rw [decodeWord, ho, decodeLoad, funct3_of_row hw (by decide)]; rfl)

theorem isSome_of_storeRow (hr : r ∈ storeRows) : (decodeWord a w).isSome := by
  fin_cases hr <;> (rw [decodeWord, ho, decodeStore, funct3_of_row hw (by decide)]; rfl)

theorem isSome_of_branchRow (hr : r ∈ branchRows) : (decodeWord a w).isSome := by
  fin_cases hr <;> (rw [decodeWord, ho, decodeBranch, funct3_of_row hw (by decide)]; rfl)

theorem isSome_of_jumpRow (hr : r ∈ jumpRows) : (decodeWord a w).isSome := by
  fin_cases hr
  · rw [decodeWord, ho]; rfl
  · rw [decodeWord, ho, funct3_of_row hw (by decide)]; rfl

omit hw in
theorem isSome_of_upperRow (hr : r ∈ upperRows) : (decodeWord a w).isSome := by
  fin_cases hr <;> (rw [decodeWord, ho]; rfl)

theorem isSome_of_systemRow (hr : r ∈ systemRows) : (decodeWord a w).isSome := by
  fin_cases hr <;>
    (rw [decodeWord, ho, decodeSystem, funct3_of_row hw (by decide), extractLsb'_of_masked hw (by decide)]; rfl)

theorem isSome_of_atomicRow (hr : r ∈ atomicRows a) : (decodeWord a w).isSome := by
  cases a <;> fin_cases hr <;>
    (rw [decodeWord, ho, decodeAtomic, funct3_of_row hw (by decide), funct5_of_row hw (by decide)]; rfl)

omit ho

/-- R90: a word that matches a row is recognised. -/
theorem isSome_of_row (hr : r ∈ opcodeRows a) : (decodeWord a w).isSome := by
  have ho := opcode_of_row hw hr
  rw [opcodeRows, List.mem_append, List.mem_append, List.mem_append, List.mem_append, List.mem_append, List.mem_append,
    List.mem_append, List.mem_append] at hr
  rcases hr with (((((((hr | hr) | hr) | hr) | hr) | hr) | hr) | hr) | hr
  · exact isSome_of_opRow hw ho hr
  · exact isSome_of_opImmRow hw ho hr
  · exact isSome_of_loadRow hw ho hr
  · exact isSome_of_storeRow hw ho hr
  · exact isSome_of_branchRow hw ho hr
  · exact isSome_of_jumpRow hw ho hr
  · exact isSome_of_upperRow ho hr
  · exact isSome_of_systemRow hw ho hr
  · exact isSome_of_atomicRow hw ho hr

end

/-! ### A recognised word matches a row, and only one -/

/-- R90: a recognised word matches a row with the code its record drives. -/
theorem exists_row_of_decodeWord {a : AmoorFunct5} {w : Word} {i : Instr} (h : decodeWord a w = some i) (inp : Inputs) :
    ∃ r ∈ opcodeRows a, w &&& r.mask = r.value ∧ r.code = (recordOf i inp).mnem := by
  obtain ⟨r, hr, hw, hc⟩ := Laws.RowKey.statement i a inp
  rw [encode_of_decodeWord h, OpcodeRow.matchesWord, beq_iff_eq] at hw
  exact ⟨r, hr, hw, hc⟩

/-- R102: the bits that two rows both key, and key differently. -/
def OpcodeRow.clash (r r' : OpcodeRow) : Word := (r.value ^^^ r'.value) &&& r.mask &&& r'.mask

theorem OpcodeRow.clash_comm (r r' : OpcodeRow) : r.clash r' = r'.clash r := by
  rw [clash, clash, BitVec.xor_comm, BitVec.and_assoc, BitVec.and_comm r.mask, ← BitVec.and_assoc]

/-- Rows that some word matches both of do not clash. -/
theorem OpcodeRow.clash_eq_zero {w : Word} {r r' : OpcodeRow} (h : w &&& r.mask = r.value) (h' : w &&& r'.mask = r'.value) :
    r.clash r' = 0 := by
  rw [clash, ← h, ← h', show (0 : Word) = 0#32 from rfl]
  ext j hj
  have hbit : ∀ x m m' : Bool, ((x && m ^^ x && m') && m && m') = false := by decide
  simpa only [BitVec.getElem_and, BitVec.getElem_xor, BitVec.getElem_zero] using hbit w[j] r.mask[j] r'.mask[j]

/-- R102: any two rows of the table clash. -/
theorem opcodeRows_clash (a : AmoorFunct5) : (opcodeRows a).Pairwise fun r r' => r.clash r' ≠ 0 := by
  cases a <;> decide

theorem clash_ne_zero {a : AmoorFunct5} {r r' : OpcodeRow} (hr : r ∈ opcodeRows a) (hr' : r' ∈ opcodeRows a)
    (hne : r ≠ r') : r.clash r' ≠ 0 := by
  have hsymm : Std.Symm fun r r' : OpcodeRow => r.clash r' ≠ 0 := ⟨fun r r' h => by rwa [OpcodeRow.clash_comm]⟩
  exact (opcodeRows_clash a).forall hr hr' hne

/-- R90: at most one row matches a word. -/
theorem row_unique {a : AmoorFunct5} {w : Word} {r r' : OpcodeRow} (hr : r ∈ opcodeRows a) (hr' : r' ∈ opcodeRows a)
    (hw : w &&& r.mask = r.value) (hw' : w &&& r'.mask = r'.value) : r = r' := by
  by_contra hne
  exact clash_ne_zero hr hr' hne (OpcodeRow.clash_eq_zero hw hw')

/-! ### The block's verdict and code -/

theorem block_valid_iff_row (par : Params) (inp : Inputs) :
    (block par inp).valid = true ↔ ∃ r ∈ opcodeRows par.amoorFunct5, inp.insn &&& r.mask = r.value := by
  constructor
  · intro h
    obtain ⟨i, hi, -⟩ := exists_recordOf_of_valid h
    obtain ⟨r, hr, hw, -⟩ := exists_row_of_decodeWord hi inp
    exact ⟨r, hr, hw⟩
  · rintro ⟨r, hr, hw⟩
    rw [block_valid]
    exact isSome_of_row hw hr

/-- The row a word matches gives the code its record drives. -/
theorem block_mnem_of_row {par : Params} {inp : Inputs} {r : OpcodeRow} (hr : r ∈ opcodeRows par.amoorFunct5)
    (hw : inp.insn &&& r.mask = r.value) : (block par inp).mnem = r.code := by
  obtain ⟨i, hi, hb⟩ := exists_recordOf_of_valid ((block_valid_iff_row par inp).mpr ⟨r, hr, hw⟩)
  obtain ⟨r', hr', hw', hc⟩ := exists_row_of_decodeWord hi inp
  rw [hb, ← hc, row_unique hr hr' hw hw']

end Sys2Proof
end

section
/-! SUPPORT. The format of a recognised word (R79), and the bits of a word that reach no output but the fields (R105). -/

namespace Sys2Proof

open Sys2Proof.Machine

/-! ### The format of a code (R79) -/

/-- The format code of each mnemonic code, family by family (R26, R27); R for the atomics, 48 and up. -/
def fmtOfCode (code : BitVec 6) : BitVec 3 :=
  if code ≤ 18 then fmtCode .R
  else if code ≤ 32 then fmtCode .I
  else if code ≤ 35 then fmtCode .S
  else if code ≤ 41 then fmtCode .B
  else if code = 42 then fmtCode .J
  else if code = 43 then fmtCode .I
  else if code ≤ 45 then fmtCode .U
  else if code ≤ 47 then fmtCode .I
  else fmtCode .R

theorem recordOf_fmt (i : Instr) (inp : Inputs) : (recordOf i inp).fmt = fmtOfCode (recordOf i inp).mnem := by
  cases i <;> rfl

/-- R79: the opcode and the format of every row are a line of the table. -/
theorem opcode_fmt_of_row {a : AmoorFunct5} : ∀ r ∈ opcodeRows a,
    (r.value.extractLsb' 0 7, fmtOfCode r.code) ∈ ([(0x33, 1), (0x13, 2), (0x03, 2), (0x23, 3), (0x63, 4), (0x6F, 6),
      (0x67, 2), (0x37, 5), (0x17, 5), (0x73, 2), (0x2F, 1)] : List (BitVec 7 × BitVec 3)) := by
  cases a <;> decide

/-! ### Instructions up to their unkeyed bits (R105) -/

/-- The instruction with zero in every bit that is neither keyed nor rendered. -/
def Instr.eraseUnkeyed : Instr → Instr
  | .ecall _ _ => .ecall 0 0
  | .ebreak _ _ => .ebreak 0 0
  | .lrW rd rs1 _ _ => .lrW rd rs1 0 0
  | .scW rd rs2 rs1 _ => .scW rd rs2 rs1 0
  | .amoswapW rd rs2 rs1 _ => .amoswapW rd rs2 rs1 0
  | .amoaddW rd rs2 rs1 _ => .amoaddW rd rs2 rs1 0
  | .amoxorW rd rs2 rs1 _ => .amoxorW rd rs2 rs1 0
  | .amoandW rd rs2 rs1 _ => .amoandW rd rs2 rs1 0
  | .amoorW rd rs2 rs1 _ => .amoorW rd rs2 rs1 0
  | .amominW rd rs2 rs1 _ => .amominW rd rs2 rs1 0
  | .amomaxW rd rs2 rs1 _ => .amomaxW rd rs2 rs1 0
  | .amominuW rd rs2 rs1 _ => .amominuW rd rs2 rs1 0
  | .amomaxuW rd rs2 rs1 _ => .amomaxuW rd rs2 rs1 0
  | i => i

/-- The erased bits are in no record. -/
theorem recordOf_eraseUnkeyed (i : Instr) (inp : Inputs) : recordOf i.eraseUnkeyed inp = recordOf i inp := by
  cases i <;> rfl

theorem recordOf_withInsn (i : Instr) (inp : Inputs) (w : Word) :
    recordOf i { inp with insn := w } = { recordOf i inp with fields := extractFields w } := by
  cases i <;> rfl

/-- Words read as the same instruction up to its unkeyed bits drive the same outputs but for the fields. -/
theorem block_of_eraseUnkeyed {par : Params} {inp : Inputs} {w : Word}
    (h : (decodeWord par.amoorFunct5 w).map Instr.eraseUnkeyed =
      (decodeWord par.amoorFunct5 inp.insn).map Instr.eraseUnkeyed) :
    block par { inp with insn := w } = { block par inp with fields := (block par { inp with insn := w }).fields } := by
  rw [block_fields]
  cases hi : decodeWord par.amoorFunct5 inp.insn with
  | none =>
    rw [hi, Option.map_none, Option.map_eq_none_iff] at h
    rw [block_of_none hi, block_of_none (inp := { inp with insn := w }) h]
    rfl
  | some i =>
    rw [hi, Option.map_some, Option.map_eq_some_iff] at h
    obtain ⟨j, hj, hji⟩ := h
    rw [block_of_some hi, block_of_some (inp := { inp with insn := w }) hj, ← recordOf_eraseUnkeyed j, hji,
      recordOf_eraseUnkeyed, recordOf_withInsn]

/-! ### What the decoder reads from words with unkeyed bits -/

theorem decodeWord_of_atomic (a : AmoorFunct5) {w : Word} (ho : (extractFields w).opcode = 0x2F) :
    decodeWord a w = decodeAtomic a w (extractFields w) := by
  rw [decodeWord, ho]
  rfl

theorem decodeWord_of_system (a : AmoorFunct5) {w : Word} (ho : (extractFields w).opcode = 0x73) :
    decodeWord a w = decodeSystem w (extractFields w) := by
  rw [decodeWord, ho]
  rfl

/-- R35: an atomic is read alike under any ordering bits. -/
theorem decodeAtomic_eraseUnkeyed (a : AmoorFunct5) {w w' : Word} {f f' : FieldSet} (h3 : f.funct3 = f'.funct3)
    (h5 : f.funct5 = f'.funct5) (hrd : f.rd = f'.rd) (hrs1 : f.rs1 = f'.rs1) (hrs2 : f.rs2 = f'.rs2) :
    (decodeAtomic a w f).map Instr.eraseUnkeyed = (decodeAtomic a w' f').map Instr.eraseUnkeyed := by
  rw [decodeAtomic, decodeAtomic, h3, h5, hrd, hrs1, hrs2]
  split
  case isFalse => rfl
  case isTrue =>
    split
    case h_11 => split <;> rfl
    all_goals rfl

theorem decodeWord_lrW (a : AmoorFunct5) {w : Word} (hw : w &&& 0xF800707F = 0x1000202F) :
    decodeWord a w =
      some (.lrW (extractFields w).rd (extractFields w).rs1 (extractFields w).rs2 (orderBits w)) := by
  rw [decodeWord_of_atomic a (extractLsb'_of_masked hw (by decide)), decodeAtomic,
    show (extractFields w).funct3 = 2 from extractLsb'_of_masked hw (by decide),
    show (extractFields w).funct5 = 2 from extractLsb'_of_masked hw (by decide)]
  rfl

theorem decodeWord_ecall (a : AmoorFunct5) {w : Word} (hw : w &&& 0xFFF0707F = 0x00000073) :
    decodeWord a w = some (.ecall (extractFields w).rd (extractFields w).rs1) := by
  rw [decodeWord_of_system a (extractLsb'_of_masked hw (by decide)), decodeSystem,
    show (extractFields w).funct3 = 0 from extractLsb'_of_masked hw (by decide),
    show w.extractLsb' 20 12 = 0 from extractLsb'_of_masked hw (by decide)]
  rfl

theorem decodeWord_ebreak (a : AmoorFunct5) {w : Word} (hw : w &&& 0xFFF0707F = 0x00100073) :
    decodeWord a w = some (.ebreak (extractFields w).rd (extractFields w).rs1) := by
  rw [decodeWord_of_system a (extractLsb'_of_masked hw (by decide)), decodeSystem,
    show (extractFields w).funct3 = 0 from extractLsb'_of_masked hw (by decide),
    show w.extractLsb' 20 12 = 1 from extractLsb'_of_masked hw (by decide)]
  rfl

/-- Words that agree under a mask agree under a narrower one. -/
theorem and_eq_of_masked {w w' m m' : Word} (h : w &&& m = w' &&& m) (hm : m &&& m' = m') : w &&& m' = w' &&& m' := by
  rw [← hm, ← BitVec.and_assoc, h, BitVec.and_assoc]

section
variable {par : Params} {inp : Inputs} {w : Word}

/-- R35: the ordering bits of an atomic word reach no output but the fields. -/
theorem block_of_orderBits (ho : inp.insn &&& 0x7F = 0x2F) (h : inp.insn &&& 0xF9FFFFFF = w &&& 0xF9FFFFFF) :
    block par { inp with insn := w } = { block par inp with fields := (block par { inp with insn := w }).fields } := by
  have hop : (extractFields inp.insn).opcode = 0x2F := extractLsb'_of_masked ho (by decide)
  have hop' : (extractFields w).opcode = 0x2F := (extractLsb'_eq_of_masked h.symm (by decide)).trans hop
  apply block_of_eraseUnkeyed
  rw [decodeWord_of_atomic _ hop, decodeWord_of_atomic _ hop']
  apply decodeAtomic_eraseUnkeyed <;> exact extractLsb'_eq_of_masked h.symm (by decide)

/-- The `rs2` of lr.w reaches no output but the fields either. -/
theorem block_of_lrW (ho : inp.insn &&& 0xF800707F = 0x1000202F) (h : inp.insn &&& 0xF80FFFFF = w &&& 0xF80FFFFF) :
    (block par inp).valid = true ∧
      block par { inp with insn := w } = { block par inp with fields := (block par { inp with insn := w }).fields } := by
  have hw : w &&& 0xF800707F = 0x1000202F := (and_eq_of_masked h.symm (by decide)).trans ho
  have hrd : (extractFields w).rd = (extractFields inp.insn).rd := extractLsb'_eq_of_masked h.symm (by decide)
  have hrs1 : (extractFields w).rs1 = (extractFields inp.insn).rs1 := extractLsb'_eq_of_masked h.symm (by decide)
  refine ⟨by rw [block_valid, decodeWord_lrW _ ho]; rfl, block_of_eraseUnkeyed ?_⟩
  rw [decodeWord_lrW _ ho, decodeWord_lrW _ hw, hrd, hrs1]
  rfl

/-- Nor do the `rd` and `rs1` of ecall and ebreak. -/
theorem block_of_system (ho : inp.insn &&& 0xFFF0707F = 0x00000073 ∨ inp.insn &&& 0xFFF0707F = 0x00100073)
    (h : inp.insn &&& 0xFFF0707F = w &&& 0xFFF0707F) :
    (block par inp).valid = true ∧
      block par { inp with insn := w } = { block par inp with fields := (block par { inp with insn := w }).fields } := by
  rcases ho with ho | ho
  · refine ⟨by rw [block_valid, decodeWord_ecall _ ho]; rfl, block_of_eraseUnkeyed ?_⟩
    rw [decodeWord_ecall _ ho, decodeWord_ecall _ (h ▸ ho)]
    rfl
  · refine ⟨by rw [block_valid, decodeWord_ebreak _ ho]; rfl, block_of_eraseUnkeyed ?_⟩
    rw [decodeWord_ebreak _ ho, decodeWord_ebreak _ (h ▸ ho)]
    rfl

end

end Sys2Proof
end

section
/-! SUPPORT. The length and the characters of the text (R116). -/

namespace Sys2Proof.Machine

/-! ### Texts of bounded length -/

/-- At most `n` characters, all ASCII. -/
def FitsIn (n : Nat) (t : String) : Prop := t.length ≤ n ∧ t.toList.all (·.toNat < 128) = true

theorem fitsIn_iff {n : Nat} {t : String} : FitsIn n t ↔ t.length ≤ n ∧ ∀ c ∈ t.toList, c.toNat < 128 := by
  simp [FitsIn]

theorem FitsIn.mono {m n : Nat} {t : String} (h : FitsIn m t) (hmn : m ≤ n) : FitsIn n t := ⟨h.1.trans hmn, h.2⟩

theorem FitsIn.append {m n : Nat} {s t : String} (hs : FitsIn m s) (ht : FitsIn n t) : FitsIn (m + n) (s ++ t) := by
  rw [FitsIn, String.length_append, String.toList_append, List.all_append, hs.2, ht.2]
  exact ⟨Nat.add_le_add hs.1 ht.1, rfl⟩

theorem fitsIn_space : FitsIn 1 " " := ⟨by decide, by decide⟩
theorem fitsIn_comma : FitsIn 1 "," := ⟨by decide, by decide⟩
theorem fitsIn_commaParen : FitsIn 2 ",(" := ⟨by decide, by decide⟩
theorem fitsIn_closeParen : FitsIn 1 ")" := ⟨by decide, by decide⟩

/-! ### The primitives and the operands (R36 to R38, R110 to R114) -/

/-- R37, R38: the longest name is `zero`. -/
theorem fitsIn_regname (abi : Bool) (n : Reg) : FitsIn 4 (regname n abi) := by
  have hl : ∀ n abi, (regname n abi).length ≤ 4 := by decide
  have hc : ∀ n abi, (regname n abi).toList.all (·.toNat < 128) = true := by decide
  exact ⟨hl n abi, hc n abi⟩

theorem fitsIn_hex8 (v : Word) : FitsIn 8 (hex8 v) := by
  have hd : ∀ d, (hexDigit d).toNat < 128 := by decide
  simp [FitsIn, hex8, hd]

theorem fitsIn_immText (v : Word) : FitsIn 10 (immText v) :=
  FitsIn.append (m := 2) ⟨by decide, by decide⟩ (fitsIn_hex8 v)

theorem fitsIn_relText (v : Word) : FitsIn 11 (relText v) :=
  FitsIn.append (m := 3) ⟨by decide, by decide⟩ (fitsIn_hex8 v)

theorem fitsIn_memText (abi : Bool) (v : Word) (r : Reg) : FitsIn 15 (memText abi v r) :=
  have hdollar : FitsIn 1 "$" := ⟨by decide, by decide⟩
  have hparen : FitsIn 1 "(" := ⟨by decide, by decide⟩
  (((hdollar.append (fitsIn_hex8 v)).append hparen).append (fitsIn_regname abi r)).append fitsIn_closeParen

/-- The most characters the operands of a layout take. -/
def operandRoom : Operands → Nat
  | .rrr .. => 14
  | .rri .. => 20
  | .load .. => 20
  | .store .. => 20
  | .branch .. => 21
  | .jal .. => 16
  | .jalr .. => 20
  | .ui .. => 15
  | .noops => 0
  | .lr .. => 11
  | .amo .. => 16

theorem fitsIn_operandText {abi : Bool} {imm : Word} {ops : Operands} {t : String}
    (h : operandText abi imm ops = some t) : FitsIn (operandRoom ops) t := by
  have hr := fitsIn_regname abi
  cases ops <;> cases h
  case rrr rd rs1 rs2 => exact ((((hr rd).append fitsIn_comma).append (hr rs1)).append fitsIn_comma).append (hr rs2)
  case rri rd rs1 =>
    exact ((((hr rd).append fitsIn_comma).append (hr rs1)).append fitsIn_comma).append (fitsIn_immText imm)
  case load rd rs1 => exact ((hr rd).append fitsIn_comma).append (fitsIn_memText abi imm rs1)
  case store rs2 rs1 => exact ((hr rs2).append fitsIn_comma).append (fitsIn_memText abi imm rs1)
  case branch rs1 rs2 =>
    exact ((((hr rs1).append fitsIn_comma).append (hr rs2)).append fitsIn_comma).append (fitsIn_relText imm)
  case jal rd => exact ((hr rd).append fitsIn_comma).append (fitsIn_relText imm)
  case jalr rd rs1 => exact ((hr rd).append fitsIn_comma).append (fitsIn_memText abi imm rs1)
  case ui rd => exact ((hr rd).append fitsIn_comma).append (fitsIn_immText imm)
  case lr rd rs1 => exact (((hr rd).append fitsIn_commaParen).append (hr rs1)).append fitsIn_closeParen
  case amo rd rs2 rs1 =>
    exact (((((hr rd).append fitsIn_comma).append (hr rs2)).append fitsIn_commaParen).append (hr rs1)).append
      fitsIn_closeParen

/-! ### The text of a record (R110, R115) -/

theorem fitsIn_renderText {mn : String} {k : Nat} (hmn : FitsIn k mn) (abi : Bool) (imm : Word) (ops : Operands) :
    FitsIn (k + (1 + operandRoom ops)) (renderText mn abi imm ops) := by
  cases h : operandText abi imm ops with
  | none => rw [renderText_of_none h]; exact hmn.mono (Nat.le_add_right _ _)
  | some t => rw [renderText_of_some h]; exact hmn.append (fitsIn_space.append (fitsIn_operandText h))

/-- R116: each mnemonic leaves its layout's operands their room; `sltiu`, `bltu`, `bgeu` and the nine-letter atomics just
do. -/
theorem fitsIn_recordOf_text (i : Instr) (inp : Inputs) : FitsIn 26 (recordOf i inp).text := by
  have h : ∀ {mn : String} {imm : Word} {ops : Operands} (k : Nat), FitsIn k mn → k + (1 + operandRoom ops) ≤ 26 →
      FitsIn 26 (renderText mn inp.abi imm ops) := fun k hmn hk => (fitsIn_renderText hmn _ _ _).mono hk
  cases i <;> exact h _ ⟨le_rfl, by decide⟩ (by dsimp only [operandRoom]; decide)

theorem fitsIn_block_text {par : Params} (h : par.unknownToken = "???") (inp : Inputs) :
    FitsIn 26 (block par inp).text := by
  cases hi : decodeWord par.amoorFunct5 inp.insn with
  | some i => rw [block_of_some hi]; exact fitsIn_recordOf_text i inp
  | none =>
    rw [block_of_none hi]
    show FitsIn 26 par.unknownToken
    rw [h]
    exact ⟨by decide, by decide⟩

end Sys2Proof.Machine
end

section
/-! The statements of 30_encoding.md. -/

namespace Sys2Proof.Proofs

open Sys2Proof.Machine

/-- Settles O22: a word that matches a row is recognised, a recognised word encodes its instruction and so matches that
instruction's row, and any two rows clash. -/
theorem dispatcherFollowsTheRows : Obligations.DispatcherFollowsTheRows := by
  intro par inp
  refine ⟨block_valid_iff_row par inp, fun r hr r' hr' => row_unique hr hr', rfl, fun r hr r' hr' => clash_ne_zero hr hr',
    fun r hr => block_mnem_of_row hr, fun hnone => block_of_not_valid ?_⟩
  rw [← Bool.not_eq_true, block_valid_iff_row]
  rintro ⟨r, hr, hw⟩
  exact hnone r hr hw

/-- Settles O31: the row of a recognised word fixes its opcode, and the row's code the format. -/
theorem formatFollowsTheOpcode : Obligations.FormatFollowsTheOpcode := by
  intro par inp h
  obtain ⟨i, hi, hb⟩ := exists_recordOf_of_valid h
  obtain ⟨r, hr, hw, hc⟩ := exists_row_of_decodeWord hi inp
  rw [block_fields, hb, recordOf_fmt, ← hc, opcode_of_row hw hr]
  exact opcode_fmt_of_row r hr

/-- Settles O35: the mnemonic and the bounds of the operands add up to 26 at most, and two words decode to the longest. -/
theorem textIsAtMost26Characters : Obligations.TextIsAtMost26Characters := by
  refine ⟨fun par inp h => fitsIn_iff.mp (fitsIn_block_text h inp), fun par p => ⟨?_, ?_, by decide, by decide⟩⟩
  · have hd : decodeWord par.amoorFunct5 0xE000202F = some (.amomaxuW 0 0 0 0) := by cases par.amoorFunct5 <;> decide
    rw [block_of_some (inp := ⟨0xE000202F, true, p⟩) hd]
    cases p <;> decide
  · have hd : decodeWord par.amoorFunct5 0xFE006FE3 = some (.bltu 0 0 0xFFFFFFFE) := by cases par.amoorFunct5 <;> decide
    rw [block_of_some (inp := ⟨0xFE006FE3, true, p⟩) hd]
    cases p <;> decide

/-- Settles O36: words that differ in unkeyed bits are read as the same instruction up to those bits, which no record
holds. -/
theorem unkeyedBitsChangeNothingElse : Obligations.UnkeyedBitsChangeNothingElse := by
  intro par inp w
  refine ⟨block_of_orderBits, block_of_lrW, block_of_system, ?_⟩
  rw [block_fields, extractFields]
  simp

end Sys2Proof.Proofs
end

section
/-! SUPPORT. Words keyed by opcode, funct3 and funct7 under opcode 0110011 (R72, R92): what the dispatcher reads from them,
and the record of the RRR form (R87, R110, R111). -/

namespace Sys2Proof

open Sys2Proof.Machine Sys2Proof.Claims

/-- The record of a recognised word in the terms of the Decode lines. -/
theorem recognisedOut_eq_recognised (inp : Inputs) (code : BitVec 6) (mn : String) (fmt : Fmt) (ops : Operands)
    (imm : Word) : recognisedOut inp code mn fmt ops imm =
      recognised inp code (fmtCode fmt) (formCode (operandsForm ops)) imm (renderText mn inp.abi imm ops) := rfl

/-- R110, R111: the text of the RRR form. -/
theorem renderText_rrr (mn : String) (abi : Bool) (imm : Word) (rd rs1 rs2 : Reg) :
    renderText mn abi imm (.rrr rd rs1 rs2) =
      mn ++ " " ++ regname rd abi ++ "," ++ regname rs1 abi ++ "," ++ regname rs2 abi := by
  rw [renderText_of_some rfl]
  simp only [String.append_assoc]

/-- R92: of a word under opcode 0110011 the dispatcher reads the operands, and the keys of the masked word. -/
theorem decodeWord_of_op (a : AmoorFunct5) {w v : Word} (hw : w &&& 0xFE00707F = v)
    (ho : (extractFields v).opcode = 0b0110011) :
    decodeWord a w =
      decodeOp { extractFields w with funct7 := (extractFields v).funct7, funct3 := (extractFields v).funct3 } := by
  have hop : (extractFields w).opcode = 0b0110011 := (extractLsb'_of_masked hw (by decide)).trans ho
  have h7 : (extractFields w).funct7 = (extractFields v).funct7 := extractLsb'_of_masked hw (by decide)
  have h3 : (extractFields w).funct3 = (extractFields v).funct3 := extractLsb'_of_masked hw (by decide)
  rw [decodeWord, hop, ← h7, ← h3]
  rfl

/-- The Decode line of an instruction of opcode 0110011: its keys select `i`, and the record of `i` is of format R and form
RRR with no immediate. -/
theorem wordDrives_rrr {v : Word} {code : BitVec 6} {mn : String} (i : Reg → Reg → Reg → Instr)
    (ho : (extractFields v).opcode = 0b0110011)
    (hd : ∀ f : FieldSet, decodeOp { f with funct7 := (extractFields v).funct7, funct3 := (extractFields v).funct3 } =
      some (i f.rd f.rs1 f.rs2))
    (hr : ∀ rd rs1 rs2 inp, recordOf (i rd rs1 rs2) inp = recognisedOut inp code mn .R (.rrr rd rs1 rs2) 0) :
    WordDrives 0xFE00707F v code 1 1 (fun _ => 0)
      (fun f abi _ => mn ++ " " ++ regname f.rd abi ++ "," ++ regname f.rs1 abi ++ "," ++ regname f.rs2 abi) := by
  intro par inp hw
  rw [block_of_some ((decodeWord_of_op _ hw ho).trans (hd _)), hr, recognisedOut_eq_recognised, renderText_rrr]
  rfl

end Sys2Proof
end

section
/-! The statements of 40_rtype.md. -/

namespace Sys2Proof.Proofs

/-- Settles O1: the keys of each row select its instruction, whose record is the rule's. -/
theorem registerRegisterWordsDecode : Obligations.RegisterRegisterWordsDecode := by
  simp only [Obligations.RegisterRegisterWordsDecode, List.forall_mem_cons]
  refine ⟨wordDrives_rrr .add ?_ ?_ ?_, wordDrives_rrr .sub ?_ ?_ ?_, wordDrives_rrr .sll ?_ ?_ ?_,
    wordDrives_rrr .slt ?_ ?_ ?_, wordDrives_rrr .sltu ?_ ?_ ?_, wordDrives_rrr .xor ?_ ?_ ?_,
    wordDrives_rrr .srl ?_ ?_ ?_, wordDrives_rrr .sra ?_ ?_ ?_, wordDrives_rrr .or ?_ ?_ ?_,
    wordDrives_rrr .and ?_ ?_ ?_, List.forall_mem_nil _⟩
  all_goals
    intros
    rfl

end Sys2Proof.Proofs
end

section
/-! The statements of 41_m_extension.md. -/

namespace Sys2Proof.Proofs

/-- Settles O2: funct7 1 and the funct3 of each row select its instruction, whose record is the rule's. -/
theorem multiplyDivideWordsDecode : Obligations.MultiplyDivideWordsDecode := by
  simp only [Obligations.MultiplyDivideWordsDecode, List.forall_mem_cons]
  refine ⟨wordDrives_rrr .mul ?_ ?_ ?_, wordDrives_rrr .mulh ?_ ?_ ?_, wordDrives_rrr .mulhsu ?_ ?_ ?_,
    wordDrives_rrr .mulhu ?_ ?_ ?_, wordDrives_rrr .div ?_ ?_ ?_, wordDrives_rrr .divu ?_ ?_ ?_,
    wordDrives_rrr .rem ?_ ?_ ?_, wordDrives_rrr .remu ?_ ?_ ?_, List.forall_mem_nil _⟩
  all_goals
    intros
    rfl

end Sys2Proof.Proofs
end

section
/-! SUPPORT. Words under opcode 0010011 (R73, R93): the keys the dispatcher reads from them, and the record of the RRI form
(R81, R86, R110 to R112). -/

namespace Sys2Proof

open Sys2Proof.Machine Sys2Proof.Claims

/-- R110 to R112: the text of the RRI form. -/
theorem renderText_rri (mn : String) (abi : Bool) (imm : Word) (rd rs1 : Reg) :
    renderText mn abi imm (.rri rd rs1) = mn ++ " " ++ regname rd abi ++ "," ++ regname rs1 abi ++ ",#$" ++ hex8 imm := by
  rw [renderText_of_some rfl, immText, show ",#$" = "," ++ "#$" from rfl]
  simp only [String.append_assoc]

/-- The Decode line of an instruction of format I and form RRI, from what its words decode to. -/
theorem wordDrives_rri {m v : Word} {code : BitVec 6} {mn : String} {imm : Word → Word} (i : Reg → Reg → Word → Instr)
    (hd : ∀ a w, w &&& m = v → decodeWord a w = some (i (extractFields w).rd (extractFields w).rs1 (imm w)))
    (hr : ∀ rd rs1 x inp, recordOf (i rd rs1 x) inp = recognisedOut inp code mn .I (.rri rd rs1) x) :
    WordDrives m v code 2 2 imm
      (fun f abi x => mn ++ " " ++ regname f.rd abi ++ "," ++ regname f.rs1 abi ++ ",#$" ++ hex8 x) := by
  intro par inp hw
  rw [block_of_some (hd _ _ hw), hr, recognisedOut_eq_recognised, renderText_rri]
  rfl

/-- R93: of a word under opcode 0010011 the dispatcher reads the operands and the keys. -/
theorem decodeWord_of_opImm (a : AmoorFunct5) {w : Word} (ho : (extractFields w).opcode = 0b0010011) :
    decodeWord a w = decodeOpImm w (extractFields w) := by
  rw [decodeWord, ho]
  rfl

section
variable {v : Word} {code : BitVec 6} {mn : String} (ho : (extractFields v).opcode = 0b0010011)
include ho

/-- The Decode line of an instruction that funct3 alone selects, with the I immediate. -/
theorem wordDrives_immI (i : Reg → Reg → Word → Instr)
    (hd : ∀ (w : Word) (f : FieldSet),
      decodeOpImm w { f with funct3 := (extractFields v).funct3 } = some (i f.rd f.rs1 (immI w)))
    (hr : ∀ rd rs1 x inp, recordOf (i rd rs1 x) inp = recognisedOut inp code mn .I (.rri rd rs1) x) :
    WordDrives 0x0000707F v code 2 2 (fun w => (w.extractLsb' 20 12).signExtend 32)
      (fun f abi x => mn ++ " " ++ regname f.rd abi ++ "," ++ regname f.rs1 abi ++ ",#$" ++ hex8 x) := by
  refine wordDrives_rri i (fun a w hw => ?_) hr
  have h3 : (extractFields w).funct3 = (extractFields v).funct3 := extractLsb'_of_masked hw (by decide)
  rw [decodeWord_of_opImm a ((extractLsb'_of_masked hw (by decide)).trans ho)]
  specialize hd w (extractFields w)
  rw [← h3] at hd
  exact hd

/-- The Decode line of a shift, which funct3 and the discriminator select, with the shift amount. -/
theorem wordDrives_immSH (i : Reg → Reg → Word → Instr)
    (hd : ∀ (w : Word) (f : FieldSet),
      decodeOpImm w { f with funct7 := (extractFields v).funct7, funct3 := (extractFields v).funct3 } =
        some (i f.rd f.rs1 (immSH w)))
    (hr : ∀ rd rs1 x inp, recordOf (i rd rs1 x) inp = recognisedOut inp code mn .I (.rri rd rs1) x) :
    WordDrives 0xFE00707F v code 2 2 (fun w => (w.extractLsb' 20 5).setWidth 32)
      (fun f abi x => mn ++ " " ++ regname f.rd abi ++ "," ++ regname f.rs1 abi ++ ",#$" ++ hex8 x) := by
  refine wordDrives_rri i (fun a w hw => ?_) hr
  have h7 : (extractFields w).funct7 = (extractFields v).funct7 := extractLsb'_of_masked hw (by decide)
  have h3 : (extractFields w).funct3 = (extractFields v).funct3 := extractLsb'_of_masked hw (by decide)
  rw [decodeWord_of_opImm a ((extractLsb'_of_masked hw (by decide)).trans ho)]
  specialize hd w (extractFields w)
  rw [← h7, ← h3] at hd
  exact hd

end

end Sys2Proof
end

section
/-! The statements of 42_itype_arith.md. -/

namespace Sys2Proof.Proofs

/-- Settles O3: the funct3 of each row selects its instruction, whose record is the rule's. -/
theorem registerImmediateWordsDecode : Obligations.RegisterImmediateWordsDecode := by
  simp only [Obligations.RegisterImmediateWordsDecode, List.forall_mem_cons]
  refine ⟨wordDrives_immI ?_ .addi ?_ ?_, wordDrives_immI ?_ .slti ?_ ?_, wordDrives_immI ?_ .sltiu ?_ ?_,
    wordDrives_immI ?_ .xori ?_ ?_, wordDrives_immI ?_ .ori ?_ ?_, wordDrives_immI ?_ .andi ?_ ?_, List.forall_mem_nil _⟩
  all_goals
    intros
    rfl

/-- Settles O4: the funct3 and the discriminator of each row select its instruction, whose record is the rule's. -/
theorem immediateShiftWordsDecode : Obligations.ImmediateShiftWordsDecode := by
  simp only [Obligations.ImmediateShiftWordsDecode, List.forall_mem_cons]
  refine ⟨wordDrives_immSH ?_ .slli ?_ ?_, wordDrives_immSH ?_ .srli ?_ ?_, wordDrives_immSH ?_ .srai ?_ ?_,
    List.forall_mem_nil _⟩
  all_goals
    intros
    rfl

end Sys2Proof.Proofs
end

section
/-! SUPPORT. Words under opcode 0000011 (R73, R94): the key the dispatcher reads from them, and the record of the LOAD form
(R81, R110, R113). -/

namespace Sys2Proof

open Sys2Proof.Machine Sys2Proof.Claims

/-- R110, R113: the text of a layout whose operands are a register and the MEM spelling. -/
theorem renderText_mem {abi : Bool} {imm : Word} {ops : Operands} {r base : Reg}
    (h : operandText abi imm ops = some (regname r abi ++ "," ++ memText abi imm base)) (mn : String) :
    renderText mn abi imm ops =
      mn ++ " " ++ regname r abi ++ ",$" ++ hex8 imm ++ "(" ++ regname base abi ++ ")" := by
  rw [renderText_of_some h, memText, show ",$" = "," ++ "$" from rfl]
  simp only [String.append_assoc]

/-- R94: of a word under opcode 0000011 the dispatcher reads the operands, and the funct3 of the masked word. -/
theorem decodeWord_of_load (a : AmoorFunct5) {w v : Word} (hw : w &&& 0x0000707F = v)
    (ho : (extractFields v).opcode = 0b0000011) :
    decodeWord a w = decodeLoad w { extractFields w with funct3 := (extractFields v).funct3 } := by
  have hop : (extractFields w).opcode = 0b0000011 := (extractLsb'_of_masked hw (by decide)).trans ho
  have h3 : (extractFields w).funct3 = (extractFields v).funct3 := extractLsb'_of_masked hw (by decide)
  rw [decodeWord, hop, ← h3]
  rfl

/-- The Decode line of a load: its funct3 selects `i`, and the record of `i` is of format I and form LOAD with the I
immediate as offset. -/
theorem wordDrives_load {v : Word} {code : BitVec 6} {mn : String} (i : Reg → Reg → Word → Instr)
    (ho : (extractFields v).opcode = 0b0000011)
    (hd : ∀ (w : Word) (f : FieldSet),
      decodeLoad w { f with funct3 := (extractFields v).funct3 } = some (i f.rd f.rs1 (immI w)))
    (hr : ∀ rd rs1 x inp, recordOf (i rd rs1 x) inp = recognisedOut inp code mn .I (.load rd rs1) x) :
    WordDrives 0x0000707F v code 2 3 (fun w => (w.extractLsb' 20 12).signExtend 32)
      (fun f abi x => mn ++ " " ++ regname f.rd abi ++ ",$" ++ hex8 x ++ "(" ++ regname f.rs1 abi ++ ")") := by
  intro par inp hw
  rw [block_of_some ((decodeWord_of_load _ hw ho).trans (hd _ _)), hr, recognisedOut_eq_recognised, renderText_mem rfl]
  rfl

end Sys2Proof
end

section
/-! The statements of 43_load.md. -/

namespace Sys2Proof.Proofs

/-- Settles O5: the funct3 of each row selects its instruction, whose record is the rule's. -/
theorem loadWordsDecode : Obligations.LoadWordsDecode := by
  simp only [Obligations.LoadWordsDecode, List.forall_mem_cons]
  refine ⟨wordDrives_load .lb ?_ ?_ ?_, wordDrives_load .lh ?_ ?_ ?_, wordDrives_load .lw ?_ ?_ ?_,
    wordDrives_load .lbu ?_ ?_ ?_, wordDrives_load .lhu ?_ ?_ ?_, List.forall_mem_nil _⟩
  all_goals
    intros
    rfl

end Sys2Proof.Proofs
end

section
/-! SUPPORT. Words under opcode 0100011 (R74, R95): the key the dispatcher reads from them, and the record of the STORE form
(R82, R110, R113). -/

namespace Sys2Proof

open Sys2Proof.Machine Sys2Proof.Claims

/-- A word keyed by opcode and funct3 has these two fields from the masked word, and the rest from itself. -/
theorem extractFields_of_masked_funct3 {w v : Word} (hw : w &&& 0x0000707F = v) :
    extractFields w =
      { extractFields w with opcode := (extractFields v).opcode, funct3 := (extractFields v).funct3 } := by
  have hop : (extractFields w).opcode = (extractFields v).opcode := extractLsb'_of_masked hw (by decide)
  have h3 : (extractFields w).funct3 = (extractFields v).funct3 := extractLsb'_of_masked hw (by decide)
  rw [← hop, ← h3]

/-- R95: under opcode 0100011 the dispatcher is the decoder of the stores. -/
theorem decodeWord_of_store (a : AmoorFunct5) {w : Word} (ho : (extractFields w).opcode = 0b0100011) :
    decodeWord a w = decodeStore w (extractFields w) := by
  rw [decodeWord, ho]
  rfl

/-- The Decode line of a store: its keys select `i`, and the record of `i` is of format S and form STORE with the S immediate
as offset. -/
theorem wordDrives_store {v : Word} {code : BitVec 6} {mn : String} (i : Reg → Reg → Word → Instr)
    (ho : (extractFields v).opcode = 0b0100011)
    (hd : ∀ (w : Word) (f : FieldSet),
      decodeStore w { f with opcode := (extractFields v).opcode, funct3 := (extractFields v).funct3 } =
        some (i f.rs2 f.rs1 (immS w)))
    (hr : ∀ rs2 rs1 x inp, recordOf (i rs2 rs1 x) inp = recognisedOut inp code mn .S (.store rs2 rs1) x) :
    WordDrives 0x0000707F v code 3 4 (fun w => (w.extractLsb' 25 7 ++ w.extractLsb' 7 5).signExtend 32)
      (fun f abi x => mn ++ " " ++ regname f.rs2 abi ++ ",$" ++ hex8 x ++ "(" ++ regname f.rs1 abi ++ ")") := by
  intro par inp hw
  have hf := extractFields_of_masked_funct3 hw
  have hop : (extractFields inp.insn).opcode = 0b0100011 := (congrArg FieldSet.opcode hf).trans ho
  have hi := (decodeWord_of_store par.amoorFunct5 hop).trans ((congrArg (decodeStore _) hf).trans (hd _ _))
  rw [block_of_some hi, hr, recognisedOut_eq_recognised, renderText_mem rfl]
  rfl

end Sys2Proof
end

section
/-! The statements of 44_store.md. -/

namespace Sys2Proof.Proofs

/-- Settles O6: the funct3 of each row selects its instruction, whose record is the rule's. -/
theorem storeWordsDecode : Obligations.StoreWordsDecode := by
  simp only [Obligations.StoreWordsDecode, List.forall_mem_cons]
  refine ⟨wordDrives_store .sb ?_ ?_ ?_, wordDrives_store .sh ?_ ?_ ?_, wordDrives_store .sw ?_ ?_ ?_,
    List.forall_mem_nil _⟩
  all_goals
    intros
    rfl

end Sys2Proof.Proofs
end

section
/-! SUPPORT. Words under opcode 1100011 (R75, R96): the key the dispatcher reads from them, and the record of the BRANCH form
(R83, R110, R114). -/

namespace Sys2Proof

open Sys2Proof.Machine Sys2Proof.Claims

/-- R110, R114: the text of the BRANCH form, whose two sources precede the REL spelling. -/
theorem renderText_branch (mn : String) (abi : Bool) (imm : Word) (rs1 rs2 : Reg) :
    renderText mn abi imm (.branch rs1 rs2) =
      mn ++ " " ++ regname rs1 abi ++ "," ++ regname rs2 abi ++ ",*+$" ++ hex8 imm := by
  rw [renderText_of_some rfl, relText, show ",*+$" = "," ++ "*+$" from rfl]
  simp only [String.append_assoc]

/-- R96: under opcode 1100011 the dispatcher is the decoder of the branches. -/
theorem decodeWord_of_branch (a : AmoorFunct5) {w : Word} (ho : (extractFields w).opcode = 0b1100011) :
    decodeWord a w = decodeBranch w (extractFields w) := by
  rw [decodeWord, ho]
  rfl

/-- The Decode line of a branch: its keys select `i`, and the record of `i` is of format B and form BRANCH with the B immediate
as offset. -/
theorem wordDrives_branch {v : Word} {code : BitVec 6} {mn : String} (i : Reg → Reg → Word → Instr)
    (ho : (extractFields v).opcode = 0b1100011)
    (hd : ∀ (w : Word) (f : FieldSet),
      decodeBranch w { f with opcode := (extractFields v).opcode, funct3 := (extractFields v).funct3 } =
        some (i f.rs1 f.rs2 (immB w)))
    (hr : ∀ rs1 rs2 x inp, recordOf (i rs1 rs2 x) inp = recognisedOut inp code mn .B (.branch rs1 rs2) x) :
    WordDrives 0x0000707F v code 4 5
      (fun w =>
        (w.extractLsb' 31 1 ++ w.extractLsb' 7 1 ++ w.extractLsb' 25 6 ++ w.extractLsb' 8 4 ++ 0#1).signExtend 32)
      (fun f abi x => mn ++ " " ++ regname f.rs1 abi ++ "," ++ regname f.rs2 abi ++ ",*+$" ++ hex8 x) := by
  intro par inp hw
  have hf := extractFields_of_masked_funct3 hw
  have hop : (extractFields inp.insn).opcode = 0b1100011 := (congrArg FieldSet.opcode hf).trans ho
  have hi := (decodeWord_of_branch par.amoorFunct5 hop).trans ((congrArg (decodeBranch _) hf).trans (hd _ _))
  rw [block_of_some hi, hr, recognisedOut_eq_recognised, renderText_branch]
  rfl

end Sys2Proof
end

section
/-! The statements of 45_branch.md. -/

namespace Sys2Proof.Proofs

/-- Settles O7: the funct3 of each row selects its instruction, whose record is the rule's. -/
theorem branchWordsDecode : Obligations.BranchWordsDecode := by
  simp only [Obligations.BranchWordsDecode, List.forall_mem_cons]
  refine ⟨wordDrives_branch .beq ?_ ?_ ?_, wordDrives_branch .bne ?_ ?_ ?_, wordDrives_branch .blt ?_ ?_ ?_,
    wordDrives_branch .bge ?_ ?_ ?_, wordDrives_branch .bltu ?_ ?_ ?_, wordDrives_branch .bgeu ?_ ?_ ?_,
    List.forall_mem_nil _⟩
  all_goals
    intros
    rfl

end Sys2Proof.Proofs
end

section
/-! SUPPORT. Words under opcodes 1101111 (R77) and 1100111 (R73), the jumps of R97: what the dispatcher reads from them, and the
records of the JAL form (R85, R110, R114) and of the JALR form (R81, R110, R113). -/

namespace Sys2Proof

open Sys2Proof.Machine Sys2Proof.Claims

/-- R110, R114: the text of the JAL form. -/
theorem renderText_jal (mn : String) (abi : Bool) (imm : Word) (rd : Reg) :
    renderText mn abi imm (.jal rd) = mn ++ " " ++ regname rd abi ++ ",*+$" ++ hex8 imm := by
  rw [renderText_of_some rfl, relText, show ",*+$" = "," ++ "*+$" from rfl]
  simp only [String.append_assoc]

/-- R97: a word under opcode 1101111 is jal, whatever its other bits. -/
theorem decodeWord_of_jal (a : AmoorFunct5) {w : Word} (ho : (extractFields w).opcode = 0b1101111) :
    decodeWord a w = some (.jal (extractFields w).rd (immJ w)) := by
  rw [decodeWord, ho]
  rfl

/-- R97: a word under opcode 1100111 is jalr when its funct3 is 0. -/
theorem decodeWord_of_jalr (a : AmoorFunct5) {w : Word} (ho : (extractFields w).opcode = 0b1100111)
    (h3 : (extractFields w).funct3 = 0) :
    decodeWord a w = some (.jalr (extractFields w).rd (extractFields w).rs1 (immI w)) := by
  rw [decodeWord, ho]
  exact if_pos h3

/-- R221: the opcode alone selects jal. -/
theorem wordDrives_jal :
    WordDrives 0x0000007F 0x0000006F 42 6 6
      (fun w =>
        (w.extractLsb' 31 1 ++ w.extractLsb' 12 8 ++ w.extractLsb' 20 1 ++ w.extractLsb' 21 10 ++ 0#1).signExtend 32)
      (fun f abi v => "jal " ++ regname f.rd abi ++ ",*+$" ++ hex8 v) := by
  intro par inp hw
  have ho : (extractFields inp.insn).opcode = 0b1101111 := extractLsb'_of_masked hw (by decide)
  rw [block_of_some (decodeWord_of_jal _ ho), recordOf, recordJal, recognisedOut_eq_recognised, renderText_jal]
  rfl

/-- R222: the opcode and funct3 0 select jalr. -/
theorem wordDrives_jalr :
    WordDrives 0x0000707F 0x00000067 43 2 7 (fun w => (w.extractLsb' 20 12).signExtend 32)
      (fun f abi v => "jalr " ++ regname f.rd abi ++ ",$" ++ hex8 v ++ "(" ++ regname f.rs1 abi ++ ")") := by
  intro par inp hw
  have ho : (extractFields inp.insn).opcode = 0b1100111 := extractLsb'_of_masked hw (by decide)
  have h3 : (extractFields inp.insn).funct3 = 0 := extractLsb'_of_masked hw (by decide)
  rw [block_of_some (decodeWord_of_jalr _ ho h3), recordOf, recordJalr, recognisedOut_eq_recognised, renderText_mem rfl]
  rfl

end Sys2Proof
end

section
/-! The statements of 46_jump.md. -/

namespace Sys2Proof.Proofs

/-- Settles O8: the opcode selects jal, and the opcode with funct3 0 selects jalr, each with the record of its rule. -/
theorem jumpWordsDecode : Obligations.JumpWordsDecode := ⟨wordDrives_jal, wordDrives_jalr⟩

end Sys2Proof.Proofs
end

section
/-! SUPPORT. Words under opcodes 0110111 and 0010111 (R76, R98): what the dispatcher reads from them, and the record of the UI
form (R84, R110 to R112). -/

namespace Sys2Proof

open Sys2Proof.Machine Sys2Proof.Claims

/-- R110 to R112: the text of the UI form. -/
theorem renderText_ui (mn : String) (abi : Bool) (imm : Word) (rd : Reg) :
    renderText mn abi imm (.ui rd) = mn ++ " " ++ regname rd abi ++ ",#$" ++ hex8 imm := by
  rw [renderText_of_some rfl, immText, show ",#$" = "," ++ "#$" from rfl]
  simp only [String.append_assoc]

/-- R98: a word under opcode 0110111 is lui, whatever its other bits. -/
theorem decodeWord_of_lui (a : AmoorFunct5) (w : Word) (ho : (extractFields w).opcode = 0b0110111) :
    decodeWord a w = some (.lui (extractFields w).rd (immU w)) := by
  rw [decodeWord, ho]
  rfl

/-- R98: a word under opcode 0010111 is auipc, whatever its other bits. -/
theorem decodeWord_of_auipc (a : AmoorFunct5) (w : Word) (ho : (extractFields w).opcode = 0b0010111) :
    decodeWord a w = some (.auipc (extractFields w).rd (immU w)) := by
  rw [decodeWord, ho]
  rfl

/-- The Decode line of an upper-immediate instruction: its opcode selects `i`, and the record of `i` is of format U and form UI
with the U immediate. -/
theorem wordDrives_ui {v : Word} {code : BitVec 6} {mn : String} (i : Reg → Word → Instr)
    (hd : ∀ a w, (extractFields w).opcode = (extractFields v).opcode →
      decodeWord a w = some (i (extractFields w).rd (immU w)))
    (hr : ∀ rd x inp, recordOf (i rd x) inp = recognisedOut inp code mn .U (.ui rd) x) :
    WordDrives 0x0000007F v code 5 8 (fun w => w.extractLsb' 12 20 ++ 0#12)
      (fun f abi x => mn ++ " " ++ regname f.rd abi ++ ",#$" ++ hex8 x) := by
  intro par inp hw
  have ho : (extractFields inp.insn).opcode = (extractFields v).opcode := extractLsb'_of_masked hw (by decide)
  rw [block_of_some (hd _ _ ho), hr, recognisedOut_eq_recognised, renderText_ui]
  rfl

end Sys2Proof
end

section
/-! The statements of 47_upper.md. -/

namespace Sys2Proof.Proofs

/-- Settles O9: the opcode of each row selects its instruction, whose record is the rule's. -/
theorem upperImmediateWordsDecode : Obligations.UpperImmediateWordsDecode := by
  simp only [Obligations.UpperImmediateWordsDecode, List.forall_mem_cons]
  exact ⟨wordDrives_ui .lui decodeWord_of_lui fun _ _ _ => rfl,
    wordDrives_ui .auipc decodeWord_of_auipc fun _ _ _ => rfl, List.forall_mem_nil _⟩

end Sys2Proof.Proofs
end

section
/-! SUPPORT. What the decoder reads is well formed (R81 to R86), and it reads an instruction back from its encoded word
(R72 to R78, R90 to R100). -/

namespace Sys2Proof

/-! ### The immediates of a word are in the range of their kind -/

/-- A sign extension stays in the signed range of the value it extends. -/
theorem toInt_signExtend_range {n : Nat} (x : BitVec n) (hn : n ≤ 32) :
    -2 ^ (n - 1) ≤ (x.signExtend 32).toInt ∧ (x.signExtend 32).toInt < 2 ^ (n - 1) := by
  rw [BitVec.toInt_signExtend_of_le hn]
  exact ⟨BitVec.le_toInt x, BitVec.toInt_lt⟩

theorem toInt_emod_two {imm : Word} (h : imm.getLsbD 0 = false) : imm.toInt % 2 = 0 := by
  have hn : imm.toNat % 2 = 0 := by simpa [BitVec.getLsbD, Nat.testBit_zero] using h
  rw [BitVec.toInt_eq_toNat_cond]
  split <;> omega

theorem fitsI_immI (w : Word) : fitsI (immI w) = true := by
  have h : -2 ^ 11 ≤ (immI w).toInt ∧ (immI w).toInt < 2 ^ 11 := toInt_signExtend_range _ (by decide)
  simp only [fitsI, Bool.and_eq_true, decide_eq_true_eq]
  omega

theorem fitsI_immS (w : Word) : fitsI (immS w) = true := by
  have h : -2 ^ 11 ≤ (immS w).toInt ∧ (immS w).toInt < 2 ^ 11 := toInt_signExtend_range _ (by decide)
  simp only [fitsI, Bool.and_eq_true, decide_eq_true_eq]
  omega

theorem fitsB_immB (w : Word) : fitsB (immB w) = true := by
  have he : (immB w).getLsbD 0 = false := getLsbD_immB w 0 (by decide)
  have h2 := toInt_emod_two he
  have h : -2 ^ 12 ≤ (immB w).toInt ∧ (immB w).toInt < 2 ^ 12 := toInt_signExtend_range _ (by decide)
  simp only [fitsB, he, Bool.not_false, Bool.true_and, Bool.and_eq_true, decide_eq_true_eq]
  omega

theorem fitsJ_immJ (w : Word) : fitsJ (immJ w) = true := by
  have he : (immJ w).getLsbD 0 = false := getLsbD_immJ w 0 (by decide)
  have h2 := toInt_emod_two he
  have h : -2 ^ 20 ≤ (immJ w).toInt ∧ (immJ w).toInt < 2 ^ 20 := toInt_signExtend_range _ (by decide)
  simp only [fitsJ, he, Bool.not_false, Bool.true_and, Bool.and_eq_true, decide_eq_true_eq]
  omega

theorem fitsU_immU (w : Word) : fitsU (immU w) = true := by
  rw [fitsU, beq_iff_eq]
  ext j hj
  rw [BitVec.getElem_extractLsb', getLsbD_immU _ _ (by omega), if_pos (by omega)]
  simp

theorem fitsShift_immSH (w : Word) : fitsShift (immSH w) = true := by
  have h := (w.extractLsb' 20 5).isLt
  rw [fitsShift, immSH, BitVec.toNat_setWidth, decide_eq_true_eq]
  omega

/-! ### Every instruction the decoder reads is well formed -/

section
variable {a : AmoorFunct5} {w : Word} {f : FieldSet} {i : Instr}

theorem wf_of_decodeOp (h : decodeOp f = some i) : i.wf = true := by
  unfold decodeOp at h
  split at h <;> cases h <;> rfl

theorem wf_of_decodeOpImm (h : decodeOpImm w f = some i) : i.wf = true := by
  unfold decodeOpImm at h
  split at h
  case h_2 =>
    split at h <;> cases h
    exact fitsShift_immSH w
  case h_6 =>
    split at h
    · cases h
      exact fitsShift_immSH w
    · split at h <;> cases h
      exact fitsShift_immSH w
  all_goals
    cases h
    exact fitsI_immI w

theorem wf_of_decodeLoad (h : decodeLoad w f = some i) : i.wf = true := by
  unfold decodeLoad at h
  split at h <;> cases h <;> exact fitsI_immI w

theorem wf_of_decodeStore (h : decodeStore w f = some i) : i.wf = true := by
  unfold decodeStore at h
  split at h <;> cases h <;> exact fitsI_immS w

theorem wf_of_decodeBranch (h : decodeBranch w f = some i) : i.wf = true := by
  unfold decodeBranch at h
  split at h <;> cases h <;> exact fitsB_immB w

theorem wf_of_decodeSystem (h : decodeSystem w f = some i) : i.wf = true := by
  unfold decodeSystem at h
  split at h
  case isFalse => cases h
  case isTrue => split at h <;> cases h <;> rfl

theorem wf_of_decodeAtomic (h : decodeAtomic a w f = some i) : i.wf = true := by
  unfold decodeAtomic at h
  split at h
  case isFalse => cases h
  case isTrue =>
    split at h
    case h_11 => split at h <;> cases h; rfl
    all_goals cases h; rfl

/-- R80 to R86: a decoded immediate is one its encoding can hold. -/
theorem wf_of_decodeWord (h : decodeWord a w = some i) : i.wf = true := by
  unfold decodeWord at h
  dsimp only at h
  split at h
  case h_1 => exact wf_of_decodeOp h
  case h_2 => exact wf_of_decodeOpImm h
  case h_3 => exact wf_of_decodeLoad h
  case h_4 => exact wf_of_decodeStore h
  case h_5 => exact wf_of_decodeBranch h
  case h_6 => cases h; exact fitsJ_immJ w
  case h_7 =>
    split at h <;> cases h
    exact fitsI_immI w
  case h_8 => cases h; exact fitsU_immU w
  case h_9 => cases h; exact fitsU_immU w
  case h_10 => exact wf_of_decodeSystem h
  case h_11 => exact wf_of_decodeAtomic h
  case h_12 => cases h

end

/-! ### An instruction is read back from its encoded word, format by format

A decoder that reads `i` of the fields and the immediate from every word with the given keys reads the operands back from the
word that encodes them. -/

section
variable {a : AmoorFunct5} {op f7 : BitVec 7} {f3 : BitVec 3} {f5 : BitVec 5} {imm : Word}

theorem decodeWord_encodeR (i : Reg → Reg → Reg → Instr) (hd : ∀ w, (extractFields w).opcode = op →
      (extractFields w).funct7 = f7 → (extractFields w).funct3 = f3 →
      decodeWord a w = some (i (extractFields w).rd (extractFields w).rs1 (extractFields w).rs2)) (rd rs1 rs2 : Reg) :
    decodeWord a (encodeR f7 rs2 rs1 f3 rd op) = some (i rd rs1 rs2) := by
  rw [hd]
  · congr <;> ext j hj <;> interval_cases j <;> simp [extractFields, encodeR]
  all_goals ext j hj; interval_cases j <;> simp [extractFields, encodeR]

theorem decodeWord_encodeA (i : Reg → Reg → Reg → BitVec 2 → Instr) (hd : ∀ w, (extractFields w).opcode = op →
      (extractFields w).funct5 = f5 → (extractFields w).funct3 = f3 →
      decodeWord a w = some (i (extractFields w).rd (extractFields w).rs2 (extractFields w).rs1 (orderBits w)))
    (rd rs2 rs1 : Reg) (order : BitVec 2) :
    decodeWord a (encodeA f5 order rs2 rs1 f3 rd op) = some (i rd rs2 rs1 order) := by
  rw [hd]
  · congr <;> ext j hj <;> interval_cases j <;> simp [extractFields, orderBits, encodeA]
  all_goals ext j hj; interval_cases j <;> simp [extractFields, encodeA]

/-- An I immediate in its range is read back from `insn[31:20]`. -/
theorem immI_encodeI (h : fitsI imm = true) (rs1 rd : Reg) : immI (encodeI imm rs1 f3 rd op) = imm := by
  apply BitVec.eq_of_getLsbD_eq
  intro j hj
  rw [getLsbD_immI _ _ hj]
  have hs := fitsI_bits h j
  interval_cases j <;> simp_all [encodeI]

theorem decodeWord_encodeI (i : Reg → Reg → Word → Instr) (h : fitsI imm = true)
    (hd : ∀ w, (extractFields w).opcode = op → (extractFields w).funct3 = f3 →
      decodeWord a w = some (i (extractFields w).rd (extractFields w).rs1 (immI w))) (rd rs1 : Reg) :
    decodeWord a (encodeI imm rs1 f3 rd op) = some (i rd rs1 imm) := by
  rw [hd, immI_encodeI h]
  · congr <;> ext j hj <;> interval_cases j <;> simp [extractFields, encodeI]
  all_goals ext j hj; interval_cases j <;> simp [extractFields, encodeI]

/-- A shift amount in its range is read back from `insn[24:20]`. -/
theorem immSH_encodeShift (h : fitsShift imm = true) (rs1 rd : Reg) :
    immSH (encodeShift f7 imm rs1 f3 rd op) = imm := by
  apply BitVec.eq_of_getLsbD_eq
  intro j hj
  rw [getLsbD_immSH _ _ hj]
  have hs := fitsShift_bits h j
  interval_cases j <;> simp_all [encodeShift]

theorem decodeWord_encodeShift (i : Reg → Reg → Word → Instr) (h : fitsShift imm = true)
    (hd : ∀ w, (extractFields w).opcode = op → (extractFields w).funct7 = f7 → (extractFields w).funct3 = f3 →
      decodeWord a w = some (i (extractFields w).rd (extractFields w).rs1 (immSH w))) (rd rs1 : Reg) :
    decodeWord a (encodeShift f7 imm rs1 f3 rd op) = some (i rd rs1 imm) := by
  rw [hd, immSH_encodeShift h]
  · congr <;> ext j hj <;> interval_cases j <;> simp [extractFields, encodeShift]
  all_goals ext j hj; interval_cases j <;> simp [extractFields, encodeShift]

/-- An S immediate in its range is read back from its two places. -/
theorem immS_encodeS (h : fitsI imm = true) (rs2 rs1 : Reg) : immS (encodeS imm rs2 rs1 f3 op) = imm := by
  apply BitVec.eq_of_getLsbD_eq
  intro j hj
  rw [getLsbD_immS _ _ hj]
  have hs := fitsI_bits h j
  interval_cases j <;> simp_all [encodeS]

theorem decodeWord_encodeS (i : Reg → Reg → Word → Instr) (h : fitsI imm = true)
    (hd : ∀ w, (extractFields w).opcode = op → (extractFields w).funct3 = f3 →
      decodeWord a w = some (i (extractFields w).rs2 (extractFields w).rs1 (immS w))) (rs2 rs1 : Reg) :
    decodeWord a (encodeS imm rs2 rs1 f3 op) = some (i rs2 rs1 imm) := by
  rw [hd, immS_encodeS h]
  · congr <;> ext j hj <;> interval_cases j <;> simp [extractFields, encodeS]
  all_goals ext j hj; interval_cases j <;> simp [extractFields, encodeS]

/-- A B immediate in its range is read back from its four places. -/
theorem immB_encodeB (h : fitsB imm = true) (rs2 rs1 : Reg) : immB (encodeB imm rs2 rs1 f3 op) = imm := by
  apply BitVec.eq_of_getLsbD_eq
  intro j hj
  rw [getLsbD_immB _ _ hj]
  have hs := fitsB_bits h j
  have he := fitsB_even h
  interval_cases j <;> simp_all [encodeB]

theorem decodeWord_encodeB (i : Reg → Reg → Word → Instr) (h : fitsB imm = true)
    (hd : ∀ w, (extractFields w).opcode = op → (extractFields w).funct3 = f3 →
      decodeWord a w = some (i (extractFields w).rs1 (extractFields w).rs2 (immB w))) (rs1 rs2 : Reg) :
    decodeWord a (encodeB imm rs2 rs1 f3 op) = some (i rs1 rs2 imm) := by
  rw [hd, immB_encodeB h]
  · congr <;> ext j hj <;> interval_cases j <;> simp [extractFields, encodeB]
  all_goals ext j hj; interval_cases j <;> simp [extractFields, encodeB]

/-- A placed pattern is read back from `insn[31:12]`. -/
theorem immU_encodeU (h : fitsU imm = true) (rd : Reg) : immU (encodeU imm rd op) = imm := by
  apply BitVec.eq_of_getLsbD_eq
  intro j hj
  rw [getLsbD_immU _ _ hj]
  have hs := fitsU_bits h j
  interval_cases j <;> simp_all [encodeU]

theorem decodeWord_encodeU (i : Reg → Word → Instr) (h : fitsU imm = true)
    (hd : ∀ w, (extractFields w).opcode = op → decodeWord a w = some (i (extractFields w).rd (immU w))) (rd : Reg) :
    decodeWord a (encodeU imm rd op) = some (i rd imm) := by
  rw [hd, immU_encodeU h]
  · congr; ext j hj; interval_cases j <;> simp [extractFields, encodeU]
  · ext j hj; interval_cases j <;> simp [extractFields, encodeU]

/-- A J immediate in its range is read back from its four places. -/
theorem immJ_encodeJ (h : fitsJ imm = true) (rd : Reg) : immJ (encodeJ imm rd op) = imm := by
  apply BitVec.eq_of_getLsbD_eq
  intro j hj
  rw [getLsbD_immJ _ _ hj]
  have hs := fitsJ_bits h j
  have he := fitsJ_even h
  interval_cases j <;> simp_all [encodeJ]

theorem decodeWord_encodeJ (i : Reg → Word → Instr) (h : fitsJ imm = true)
    (hd : ∀ w, (extractFields w).opcode = op → decodeWord a w = some (i (extractFields w).rd (immJ w))) (rd : Reg) :
    decodeWord a (encodeJ imm rd op) = some (i rd imm) := by
  rw [hd, immJ_encodeJ h]
  · congr; ext j hj; interval_cases j <;> simp [extractFields, encodeJ]
  · ext j hj; interval_cases j <;> simp [extractFields, encodeJ]

end

/-- R90 to R100: an instruction's keys select it again, and its operands are where its format puts them. -/
theorem decodeWord_encode (a : AmoorFunct5) {i : Instr} (h : i.wf = true) : decodeWord a (encode a i) = some i := by
  cases i with
  | add | sub | sll | slt | sltu | xor | srl | sra | or | and | mul | mulh | mulhsu | mulhu | div | divu | rem | remu =>
    apply decodeWord_encodeR
    intro w ho h7 h3
    rw [decodeWord, ho, decodeOp, h7, h3]
    rfl
  | addi | slti | sltiu | xori | ori | andi =>
    apply decodeWord_encodeI _ h
    intro w ho h3
    rw [decodeWord_of_opImm a ho, decodeOpImm, h3]
    rfl
  | slli | srli | srai =>
    apply decodeWord_encodeShift _ h
    intro w ho h7 h3
    rw [decodeWord_of_opImm a ho, decodeOpImm, h3, h7]
    rfl
  | lb | lh | lw | lbu | lhu =>
    apply decodeWord_encodeI _ h
    intro w ho h3
    rw [decodeWord, ho, decodeLoad, h3]
    rfl
  | sb | sh | sw =>
    apply decodeWord_encodeS _ h
    intro w ho h3
    rw [decodeWord_of_store a ho, decodeStore, h3]
    rfl
  | beq | bne | blt | bge | bltu | bgeu =>
    apply decodeWord_encodeB _ h
    intro w ho h3
    rw [decodeWord_of_branch a ho, decodeBranch, h3]
    rfl
  | jal => exact decodeWord_encodeJ .jal h (fun _ => decodeWord_of_jal a) _
  | jalr => exact decodeWord_encodeI .jalr h (fun _ => decodeWord_of_jalr a) _ _
  | lui => exact decodeWord_encodeU .lui h (decodeWord_of_lui a) _
  | auipc => exact decodeWord_encodeU .auipc h (decodeWord_of_auipc a) _
  | ecall =>
    rw [decodeWord_ecall a (by rw [encode, masked_encodeI12]; decide)]
    congr <;> ext j hj <;> interval_cases j <;> simp [extractFields, encode, encodeI]
  | ebreak =>
    rw [decodeWord_ebreak a (by rw [encode, masked_encodeI12]; decide)]
    congr <;> ext j hj <;> interval_cases j <;> simp [extractFields, encode, encodeI]
  | lrW rd rs1 rs2 order =>
    apply decodeWord_encodeA (fun rd rs2 rs1 order => .lrW rd rs1 rs2 order)
    intro w ho h5 h3
    rw [decodeWord_of_atomic a ho, decodeAtomic, h3, h5]
    rfl
  | amoorW =>
    apply decodeWord_encodeA
    intro w ho h5 h3
    rw [decodeWord_of_atomic a ho, decodeAtomic, h3, h5]
    cases a <;> rfl
  | scW | amoswapW | amoaddW | amoxorW | amoandW | amominW | amomaxW | amominuW | amomaxuW =>
    apply decodeWord_encodeA
    intro w ho h5 h3
    rw [decodeWord_of_atomic a ho, decodeAtomic, h3, h5]
    rfl

end Sys2Proof
end

section
/-! The statements on the round trips between words and instructions. -/

namespace Sys2Proof.Proofs

/-- Settles O20: the keys of each row select its instruction, and each format's operands are read back from their places. -/
theorem decodeOfEncodeIsTheInstruction : Obligations.DecodeOfEncodeIsTheInstruction :=
  fun a _ h => decodeWord_encode a h

/-- Settles O21: decoding drops no bit, and every immediate it assembles is in the range of its kind. -/
theorem encodeOfDecodeIsTheWord : Obligations.EncodeOfDecodeIsTheWord :=
  fun _ _ _ h => ⟨encode_of_decodeWord h, wf_of_decodeWord h⟩

end Sys2Proof.Proofs
end

section
/-! SUPPORT. The listing, line by line (R55, R56), and the words of a stream decoded in any order (R298). -/

namespace Sys2Proof.Machine

/-! ### Line `k` of a listing -/

theorem getElem?_linesFrom (par : Params) (abi pseudo : Bool) (k j : Nat) (ws : List Word) :
    (linesFrom par abi pseudo k ws)[j]? = (ws[j]?).map (wordLine par abi pseudo (k + j)) := by
  induction ws generalizing k j with
  | nil => rfl
  | cons w ws ih =>
    cases j with
    | zero => rfl
    | succ j => rw [linesFrom, List.getElem?_cons_succ, ih, List.getElem?_cons_succ, Nat.add_right_comm, Nat.add_assoc]

/-- R55, R56: line `k` is the line of word `k`. -/
theorem getElem?_listing (par : Params) (abi pseudo : Bool) (bytes : List Byte) (k : Nat) :
    (listing par abi pseudo bytes)[k]? = ((wordsOf bytes)[k]?).map (wordLine par abi pseudo k) := by
  rw [listing, getElem?_linesFrom, Nat.zero_add]

/-- R54, R56: one line for each of the `floor(n/4)` words. -/
@[simp] theorem length_listing (par : Params) (abi pseudo : Bool) (bytes : List Byte) :
    (listing par abi pseudo bytes).length = bytes.length / 4 := by
  rw [listing, length_linesFrom, length_wordsOf]

/-- The characters of a line (R55). -/
theorem lineText_makeLine (lineFormat : LineFormat) (par : Params) (address word : Word) (text : String) :
    lineText lineFormat (makeLine par address word text) =
      if par.suppressRaw = true then text else lineFormat address word text := by
  unfold makeLine
  split <;> rfl

/-! ### Any order of decoding -/

/-- Putting the results in their places one by one is sorting them by their index. -/
theorem foldr_insertResult (results : List (Nat × Line)) :
    results.foldr insertResult [] = results.insertionSort (·.1 ≤ ·.1) := by
  have hins : ∀ r qs, insertResult r qs = List.orderedInsert (·.1 ≤ ·.1) r qs := by
    intro r qs
    induction qs with
    | nil => rfl
    | cons q qs ih => rw [insertResult, ih]; rfl
  induction results with
  | nil => rfl
  | cons r results ih => rw [List.foldr_cons, ih, hins]; rfl

/-- Looking up the indices of a list in their order gives its front. -/
theorem filterMap_getElem?_range {α : Type} (l : List α) (n : Nat) :
    (List.range n).filterMap (fun k => l[k]?) = l.take n := by
  induction n with
  | zero => rfl
  | succ n ih =>
    rw [List.range_succ, List.filterMap_append, ih, List.take_add_one]
    cases h : l[n]? <;> simp [h]

section
variable (par : Params) (abi pseudo : Bool) (bytes : List Byte)

/-- A result is the line of the word whose index it carries. -/
theorem mem_decodeInOrder {order : List Nat} {r : Nat × Line} (h : r ∈ decodeInOrder par abi pseudo bytes order) :
    (listing par abi pseudo bytes)[r.1]? = some r.2 := by
  simp only [decodeInOrder, List.mem_filterMap, Option.map_eq_some_iff] at h
  obtain ⟨k, -, w, hw, rfl⟩ := h
  rw [getElem?_listing, hw]
  rfl

/-- Decoded from front to back, the results stand in the order of their indices. -/
theorem pairwise_decodeInOrder_range (n : Nat) :
    (decodeInOrder par abi pseudo bytes (List.range n)).Pairwise (·.1 ≤ ·.1) := by
  refine List.Pairwise.filterMap _ ?_ List.pairwise_lt_range
  intro k k' hk r hr r' hr'
  obtain ⟨w, -, rfl⟩ := Option.map_eq_some_iff.mp hr
  obtain ⟨w', -, rfl⟩ := Option.map_eq_some_iff.mp hr'
  exact Nat.le_of_lt hk

/-- Decoded from front to back, the results are the lines of the listing. -/
theorem map_snd_decodeInOrder_range :
    (decodeInOrder par abi pseudo bytes (List.range (bytes.length / 4))).map Prod.snd =
      listing par abi pseudo bytes := by
  calc (decodeInOrder par abi pseudo bytes (List.range (bytes.length / 4))).map Prod.snd
      = (List.range (bytes.length / 4)).filterMap fun k => (listing par abi pseudo bytes)[k]? := by
        simp only [decodeInOrder, List.map_filterMap, getElem?_listing, Option.map_map]
        rfl
    _ = listing par abi pseudo bytes := by
        rw [filterMap_getElem?_range, ← length_listing par abi pseudo, List.take_length]

/-- R56, R298: sorted by index, the results of any order are those of the front-to-back one. -/
theorem reassemble_decodeInOrder {order : List Nat} (h : order.Perm (List.range (bytes.length / 4))) :
    reassemble (decodeInOrder par abi pseudo bytes order) = listing par abi pseudo bytes := by
  have hperm : ((decodeInOrder par abi pseudo bytes order).insertionSort (·.1 ≤ ·.1)).Perm
      (decodeInOrder par abi pseudo bytes (List.range (bytes.length / 4))) :=
    (List.perm_insertionSort _ _).trans (h.filterMap _)
  have hsame : ∀ r r' : Nat × Line, r ∈ (decodeInOrder par abi pseudo bytes order).insertionSort (·.1 ≤ ·.1) →
      r' ∈ decodeInOrder par abi pseudo bytes (List.range (bytes.length / 4)) → r.1 ≤ r'.1 → r'.1 ≤ r.1 → r = r' := by
    intro r r' hr hr' hle hge
    have hk : r.1 = r'.1 := Nat.le_antisymm hle hge
    have hl := mem_decodeInOrder par abi pseudo bytes (hperm.mem_iff.mp hr)
    rw [hk, mem_decodeInOrder par abi pseudo bytes hr'] at hl
    exact Prod.ext hk (Option.some.inj hl).symm
  have htotal : Std.Total fun r q : Nat × Line => r.1 ≤ q.1 := ⟨fun r q => Nat.le_total r.1 q.1⟩
  have htrans : IsTrans (Nat × Line) fun r q => r.1 ≤ q.1 := ⟨fun _ _ _ => Nat.le_trans⟩
  rw [reassemble, foldr_insertResult, hperm.eq_of_pairwise hsame (List.pairwise_insertionSort _ _)
    (pairwise_decodeInOrder_range par abi pseudo bytes _), map_snd_decodeInOrder_range]

end

end Sys2Proof.Machine
end

section
/-! SUPPORT. What a step keeps, and the lines it leaves (R54 to R57, R297). -/

namespace Sys2Proof.Machine

open Sys2Proof.Safety Sys2Proof.Claims

section
variable {s t : State}

/-! ### The lines a status calls for -/

theorem linesAsListed_of_running (hr : s.scan = .running) : LinesAsListed s ↔
    4 * s.k ≤ s.source.bytes.length ∧ s.lines = (fullListing s).take s.k ∧ s.reported = false := by
  rw [LinesAsListed, hr]

theorem linesAsListed_of_ended (he : s.scan = .ended) : LinesAsListed s ↔
    s.k = s.source.bytes.length / 4 ∧ s.lines = fullListing s ∧ s.source.failing = false ∧ s.reported = false := by
  rw [LinesAsListed, he]

theorem linesAsListed_of_failed {e : Nat} (hf : s.scan = .failed e) : LinesAsListed s ↔
    e ≠ 0 ∧ s.lines <+: fullListing s ∧ s.source.failing = true ∧ s.reported = true := by
  rw [LinesAsListed, hf]

@[simp] theorem length_fullListing (s : State) : (fullListing s).length = s.source.bytes.length / 4 :=
  length_listing ..

/-! ### What is left to read -/

theorem length_pendingBytes (s : State) : (pendingBytes s).length = s.source.bytes.length - 4 * s.k :=
  List.length_drop

/-- The bytes left begin with word `k`. -/
theorem getElem?_wordsOf_of_pendingBytes {w : Word} {rest : List Byte} (hb : pendingBytes s = wordBytes w ++ rest) :
    (wordsOf s.source.bytes)[s.k]? = some w := by
  rw [← List.head?_drop, ← wordsOf_drop, ← pendingBytes, hb, wordsOf_wordBytes_append]
  rfl

/-- Past a word, the bytes left are those after it. -/
theorem pendingBytes_emitLine {w : Word} {rest : List Byte} (hb : pendingBytes s = wordBytes w ++ rest) :
    pendingBytes (emitLine s) = rest := by
  rw [pendingBytes, emitLine_source, emitLine_k, Nat.mul_succ, ← List.drop_drop, ← pendingBytes, hb]
  exact List.drop_left' (length_wordBytes w)

/-! ### The frame of a step -/

theorem finishScan_cases (s : State) : s.source.failing = false ∧ finishScan s = endScan s ∨
    s.source.failing = true ∧ finishScan s = failScan s := by
  unfold finishScan
  cases s.source.failing
  · exact .inl ⟨rfl, rfl⟩
  · exact .inr ⟨rfl, rfl⟩

/-- R293: a step keeps the parameters, the naming mode, the pseudo flag and the byte source, and goes on by one word at most. -/
theorem step_keeps (h : step s = .next t) : t.par = s.par ∧ t.inp.abi = s.inp.abi ∧ t.inp.pseudo = s.inp.pseudo ∧
    t.source = s.source ∧ s.k ≤ t.k ∧ t.k ≤ s.k + 1 := by
  obtain ⟨-, ⟨w, rest, -, rfl⟩ | ⟨-, rfl⟩⟩ := step_cases h
  · exact ⟨rfl, rfl, rfl, rfl, Nat.le_succ _, Nat.le_refl _⟩
  · rcases finishScan_cases s with ⟨-, hf⟩ | ⟨-, hf⟩ <;> rw [hf] <;>
      exact ⟨rfl, rfl, rfl, rfl, Nat.le_refl _, Nat.le_succ _⟩

theorem fullListing_of_step (h : step s = .next t) : fullListing t = fullListing s := by
  obtain ⟨hpar, habi, hpseudo, hsource, -⟩ := step_keeps h
  rw [fullListing, fullListing, hpar, habi, hpseudo, hsource]

/-! ### A step keeps the invariant -/

theorem linesAsListed_emitLine {w : Word} {rest : List Byte} (hr : s.scan = .running) (hl : LinesAsListed s)
    (hb : pendingBytes s = wordBytes w ++ rest) :
    LinesAsListed (emitLine (redrive { s.inp with insn := w } s)) := by
  obtain ⟨-, hlines, hrep⟩ := (linesAsListed_of_running hr).mp hl
  rw [linesAsListed_of_running (by exact hr)]
  refine ⟨?_, ?_, hrep⟩
  · have hlen := length_pendingBytes s
    rw [hb, List.length_append, length_wordBytes] at hlen
    rw [emitLine_k, emitLine_source, redrive_k, redrive_source]
    omega
  · have hline : (fullListing s)[s.k]? = some (wordLine s.par s.inp.abi s.inp.pseudo s.k w) := by
      rw [fullListing, getElem?_listing, getElem?_wordsOf_of_pendingBytes hb]
      rfl
    show s.lines ++ [wordLine s.par s.inp.abi s.inp.pseudo s.k w] = (fullListing s).take (s.k + 1)
    rw [List.take_add_one, hline, hlines]
    rfl

theorem linesAsListed_finishScan (hr : s.scan = .running) (hl : LinesAsListed s) (hb : (pendingBytes s).length < 4) :
    LinesAsListed (finishScan s) := by
  obtain ⟨hk, hlines, hrep⟩ := (linesAsListed_of_running hr).mp hl
  rcases finishScan_cases s with ⟨hf, he⟩ | ⟨hf, he⟩ <;> rw [he]
  · have hend : s.k = s.source.bytes.length / 4 := by
      rw [length_pendingBytes] at hb
      omega
    have hall : s.lines = fullListing s := by rw [hlines, hend, ← length_fullListing, List.take_length]
    exact (linesAsListed_of_ended (endScan_scan s)).mpr ⟨hend, hall, hf, hrep⟩
  · have hprefix : s.lines <+: fullListing s := hlines ▸ List.take_prefix _ _
    exact (linesAsListed_of_failed (failScan_scan s)).mpr
      ⟨Nat.succ_ne_zero _, (List.take_prefix _ _).trans hprefix, hf, rfl⟩

theorem linesAsListed_of_step (hl : LinesAsListed s) (h : step s = .next t) : LinesAsListed t := by
  obtain ⟨hr, ⟨w, rest, hb, rfl⟩ | ⟨hb, rfl⟩⟩ := step_cases h
  · exact linesAsListed_emitLine hr hl hb
  · exact linesAsListed_finishScan hr hl hb

theorem outputsSettled_of_step (ho : OutputsSettled s) (h : step s = .next t) : OutputsSettled t := by
  obtain ⟨-, ⟨w, rest, -, rfl⟩ | ⟨-, rfl⟩⟩ := step_cases h
  · rfl
  · rcases finishScan_cases s with ⟨-, hf⟩ | ⟨-, hf⟩ <;> rw [hf] <;> exact ho

theorem linesAsListed_of_atStart (h : AtStart s) : LinesAsListed s := by
  obtain ⟨hr, hk, hlines, hrep⟩ := h
  rw [linesAsListed_of_running hr, hk, hlines]
  exact ⟨Nat.zero_le _, rfl, hrep⟩

/-! ### A whole run -/

/-- With `m` words left, `m + 1` steps bring a scan to its end, with the lines its status calls for. -/
theorem run_to_end (m : Nat) (hr : s.scan = .running) (hl : LinesAsListed s)
    (hm : s.source.bytes.length / 4 = s.k + m) : ∃ t, core.run (m + 1) s = .next t ∧ t.scan ≠ .running ∧
      LinesAsListed t ∧ fullListing t = fullListing s ∧ t.source = s.source := by
  induction m generalizing s with
  | zero =>
    have hb : (pendingBytes s).length < 4 := by rw [length_pendingBytes]; omega
    have h := step_of_noWord hr hb
    refine ⟨finishScan s, run_succ_of_next 0 h, ?_, linesAsListed_of_step hl h, fullListing_of_step h, ?_⟩
    · rcases finishScan_cases s with ⟨-, hf⟩ | ⟨-, hf⟩ <;> rw [hf] <;> intro h' <;> cases h'
    · obtain ⟨-, -, -, hs, -⟩ := step_keeps h
      exact hs
  | succ m ih =>
    have hb : 4 ≤ (pendingBytes s).length := by rw [length_pendingBytes]; omega
    obtain ⟨w, rest, hw⟩ := exists_wordBytes_append hb
    have h := step_of_word hr hw
    obtain ⟨t, hrun, hend, hlt, hlist, hsrc⟩ :=
      ih (s := emitLine (redrive { s.inp with insn := w } s)) hr (linesAsListed_of_step hl h)
        (by rw [emitLine_source, redrive_source, hm, emitLine_k, redrive_k]; omega)
    exact ⟨t, (run_succ_of_next _ h).trans hrun, hend, hlt, hlist.trans (fullListing_of_step h), hsrc⟩

/-- R297: a scan of `n` bytes is over after `floor(n/4) + 1` steps. -/
theorem run_of_atStart (h : AtStart s) : ∃ t, core.run (s.source.bytes.length / 4 + 1) s = .next t ∧ t.scan ≠ .running ∧
    LinesAsListed t ∧ fullListing t = fullListing s ∧ t.source = s.source := by
  obtain ⟨hr, hk, -⟩ := id h
  exact run_to_end _ hr (linesAsListed_of_atStart h) (by omega)

end

/-! ### The launch -/

theorem exists_code_of_allowed {a : Nat} (h : a = 0x08 ∨ a = 0x0A) : ∃ v : AmoorFunct5, v.code.toNat = a := by
  rcases h with rfl | rfl
  · exact ⟨.standard, rfl⟩
  · exact ⟨.literal, rfl⟩

/-- R291: a launch that answers a state was given allowed values, and the state is the start of a scan with them. -/
theorem launch_cases {a : Nat} {token : String} {base : Int} {abi pseudo raw : Bool} {src : Source} {s : State}
    (h : launch a token base abi pseudo raw src = .next s) :
    ∃ v : AmoorFunct5, v.code.toNat = a ∧ (0 ≤ base ∧ base < 2 ^ 32) ∧
      s = redrive ⟨0, abi, pseudo⟩ { State.reset with par := ⟨v, token, BitVec.ofInt 32 base, raw⟩, source := src } := by
  by_cases ha : a = 0x08 ∨ a = 0x0A
  · by_cases hb : 0 ≤ base ∧ base < 2 ^ 32
    · obtain ⟨v, rfl⟩ := exists_code_of_allowed ha
      rw [launch_of_allowed v hb] at h
      exact ⟨v, rfl, hb, (Host.Outcome.next.inj h).symm⟩
    · rw [launch_of_base ha hb] at h
      cases h
  · rw [launch_of_amoor (not_or.mp ha)] at h
    cases h

theorem toNat_ofInt_of_range {base : Int} (hb : 0 ≤ base ∧ base < 2 ^ 32) :
    ((BitVec.ofInt 32 base).toNat : Int) = base := by
  rw [BitVec.toNat_ofInt]
  omega

/-! ### A placed word -/

theorem tableWord_toNat (w : Word) : tableWord 32 w.toNat = w := by
  rw [tableWord, Nat.mod_eq_of_lt w.isLt, BitVec.ofNat_toNat, BitVec.setWidth_eq]

/-- The placed word is what is left to read first. -/
theorem pendingBytes_withFetchWord (s : State) (w : Word) : ∃ rest,
    pendingBytes (s.withFetchWord 32 w.toNat) = wordBytes w ++ rest := by
  refine ⟨s.source.bytes.drop (4 * s.k + 4), ?_⟩
  rw [pendingBytes, withFetchWord_source, withFetchWord_k, tableWord_toNat, placeWord, List.append_assoc _ (wordBytes w)]
  apply List.drop_left'
  rw [List.length_append, List.length_take, List.length_replicate]
  omega

end Sys2Proof.Machine
end

section
/-! The statements on the scan: 20_memory.md, 60_exceptions.md and 70_reset_and_hazards.md. -/

namespace Sys2Proof.Proofs

open Sys2Proof.Machine Sys2Proof.Safety Sys2Proof.Claims

/-- Settles O51: a step with a word left settles the outputs anew and adds the word's line, the last step changes no port and
leaves the lines its status calls for. -/
theorem stepKeepsTheInvariant : Obligations.StepKeepsTheInvariant := by
  rintro s t ⟨ho, hl⟩ h
  exact ⟨outputsSettled_of_step ho h, linesAsListed_of_step hl h⟩

/-- Settles O43: the record of a word outside the table carries the placeholder, and the step goes on as after any word. -/
theorem unrecognisedWordNeverStopsTheScan : Obligations.UnrecognisedWordNeverStopsTheScan := by
  intro s w rest hr hb hn
  have ho : block s.par { s.inp with insn := w } = unrecognisedOut s.par { s.inp with insn := w } := block_of_none hn
  refine ⟨_, step_of_word hr hb, hr, ?_, wordAddress_succ s.par s.k, pendingBytes_emitLine (s := redrive _ s) hb, ?_⟩
  · rw [emitLine_out, redrive_out, ho]
    rfl
  · rw [emitLine_lines, redrive_out, ho]
    rfl

/-- Settles O46, by whether the scan is running and a whole word is left. -/
theorem stepAnswersExactlyWhileRunning : Obligations.StepAnswersExactlyWhileRunning := by
  refine fun s => ⟨fun hr => ?_, step_of_terminated⟩
  by_cases hb : 4 ≤ (pendingBytes s).length
  · obtain ⟨w, rest, hw⟩ := exists_wordBytes_append hb
    exact ⟨_, step_of_word hr hw⟩
  · exact ⟨_, step_of_noWord hr (by omega)⟩

/-- Settles O47: neither kind of step touches the configuration, and the word index moves with a word alone. -/
theorem stepKeepsTheConfiguration : Obligations.StepKeepsTheConfiguration :=
  fun _ _ => step_keeps

/-- Settles O48: every instruction drives its record, whose fields are those of the word on `insn_i`. -/
theorem instructionsChangeOnlyTheOutputs : Obligations.InstructionsChangeOnlyTheOutputs :=
  fun i s => ⟨recordOf i s.inp, exec_eq i s, recordOf_valid i s.inp, recordOf_fields i s.inp⟩

/-- Settles O41: with the scan running, the step fetches the word and so runs what it decodes to. -/
theorem stepRunsTheDecodedInstruction : Obligations.StepRunsTheDecodedInstruction := by
  intro s w rest i hr hb hi
  have hf : fetch s = .instr i w rest := by rw [fetch, hb, decode_wordBytes, hi]
  rw [step, hr, hf]

/-- Settles O44: with no whole word left a source that does not fail ends the scan. -/
theorem scanEndsWithoutALine : Obligations.ScanEndsWithoutALine := by
  intro s hr hb hf
  rw [step_of_noWord hr hb, finishScan, hf]
  rfl

/-- Settles O45: with no whole word left a failing source fails the scan, with the free values of the state's counter. -/
theorem inputErrorIsFatal : Obligations.InputErrorIsFatal := by
  intro s hr hb hf
  refine ⟨Config.freePrefix s.free, Config.freeExitStatus s.free + 1, Nat.succ_ne_zero _, ?_⟩
  rw [step_of_noWord hr hb, finishScan, hf]
  rfl

/-- Settles O60: the bytes left begin with the placed word, and the scan is running. -/
theorem fetchWordRunsNext : Obligations.FetchWordRunsNext := by
  intro s w
  obtain ⟨rest, hb⟩ := pendingBytes_withFetchWord s w
  exact step_of_word rfl hb

/-- Settles O53, by the three outcomes of a launch. -/
theorem launchRefusesExactlyWhatIsNotAllowed : Obligations.LaunchRefusesExactlyWhatIsNotAllowed := by
  refine fun a token base abi pseudo raw src => ⟨⟨?_, ?_⟩, fun hn => ?_⟩
  · rintro ⟨s, h⟩
    obtain ⟨v, rfl, hb, -⟩ := launch_cases h
    exact ⟨by cases v <;> decide, hb⟩
  · rintro ⟨ha, hb⟩
    obtain ⟨v, rfl⟩ := exists_code_of_allowed ha
    exact ⟨_, launch_of_allowed v hb token abi pseudo raw src⟩
  · by_cases ha : a = 0x08 ∨ a = 0x0A
    · have hb : ¬(0 ≤ base ∧ base < 2 ^ 32) := fun hb => hn ⟨ha, hb⟩
      exact ⟨_, launch_of_base ha hb token abi pseudo raw src, .inr ⟨rfl, by omega⟩⟩
    · exact ⟨_, launch_of_amoor (not_or.mp ha) token base abi pseudo raw src, .inl ⟨rfl, not_or.mp ha⟩⟩

/-- Settles O54: the launched state is the reset state with the values given, its outputs settled by the launch. -/
theorem launchStartsTheScan : Obligations.LaunchStartsTheScan := by
  intro a token base abi pseudo raw src s h
  obtain ⟨v, ha, hb, rfl⟩ := launch_cases h
  refine ⟨⟨rfl, rfl, rfl, rfl⟩, rfl, rfl, rfl, rfl, rfl, ha, ?_, rfl, linesAsListed_of_atStart ⟨rfl, rfl, rfl, rfl⟩⟩
  rw [State.address, wordAddress]
  exact (congrArg (fun x : Word => (x.toNat : Int)) (BitVec.add_zero _)).trans (toNat_ofInt_of_range hb)

/-- Settles O55: the fields of the reset state. -/
theorem resetHasTheInitialValues : Obligations.ResetHasTheInitialValues :=
  ⟨rfl, rfl, rfl, rfl, rfl, rfl⟩

/-- Settles O56: both values are allowed, and the record of the word 0 is that of the reset state. -/
theorem resetIsTheDefaultLaunch : Obligations.ResetIsTheDefaultLaunch :=
  launch_of_allowed .standard (by decide) "???" false false false ⟨[], false⟩

/-- Settles O52: the reset state is that of a launch, which meets the invariant. -/
theorem resetMeetsTheInvariant : Obligations.ResetMeetsTheInvariant := by
  obtain ⟨-, -, -, -, -, -, -, -, hinv⟩ := launchStartsTheScan _ _ _ _ _ _ _ _ resetIsTheDefaultLaunch
  exact hinv

/-- Settles O57: the run reaches a state that is no longer running and whose lines are those its status calls for. -/
theorem wholeScanListsEveryWordAndEnds : Obligations.WholeScanListsEveryWordAndEnds := by
  intro s h
  obtain ⟨t, hrun, hend, hl, hlist, hsrc⟩ := run_of_atStart h
  refine ⟨t, hrun, step_of_terminated hend, length_fullListing s, ?_⟩
  rw [← hlist, ← hsrc]
  cases hs : t.scan with
  | running => exact absurd hs hend
  | ended =>
    obtain ⟨-, hlines, hf, hrep⟩ := (linesAsListed_of_ended hs).mp hl
    rw [hf]
    exact ⟨fun _ => ⟨rfl, hlines, hrep⟩, nofun⟩
  | failed e =>
    obtain ⟨he, hlines, hf, hrep⟩ := (linesAsListed_of_failed hs).mp hl
    rw [hf]
    exact ⟨nofun, fun _ => ⟨⟨e, he, rfl⟩, hlines, hrep⟩⟩

/-- Settles O58: line `k` is that of word `k`, its characters are LINE_FORMAT's, and a scan that ends clean has the whole
listing for its lines. -/
theorem listingLineOfEachWord : Obligations.ListingLineOfEachWord := by
  refine ⟨getElem?_listing, fun lineFormat par abi pseudo bytes k => ?_, ?_⟩
  · rw [List.getElem?_map, getElem?_listing, Option.map_map]
    congr 1
    funext w
    exact lineText_makeLine ..
  · intro lineFormat a token base abi pseudo raw bytes s h
    obtain ⟨hs, hsrc, rfl, rfl, -⟩ := launchStartsTheScan _ _ _ _ _ _ _ _ h
    obtain ⟨t, hrun, -, -, hgood, -⟩ := wholeScanListsEveryWordAndEnds s hs
    rw [hsrc] at hrun hgood
    obtain ⟨-, hlines, -⟩ := hgood rfl
    have hprinted : printed lineFormat t = (fullListing s).map (lineText lineFormat) := congrArg (List.map _) hlines
    rw [disassemble_of_run h hrun, hprinted, fullListing, hsrc]

/-- Settles O59: sorting by word index undoes any order of decoding. -/
theorem anyDecodingOrderGivesTheListing : Obligations.AnyDecodingOrderGivesTheListing :=
  fun par abi pseudo bytes _ h => reassemble_decodeInOrder par abi pseudo bytes h

end Sys2Proof.Proofs
end

section
/-! SUPPORT. What each form of instruction answers, in the terms of its rule (R110 to R114). -/

namespace Sys2Proof

open Sys2Proof.Machine Sys2Proof.Claims

/-- R110, R111: the text of the NOOPS form. -/
theorem renderText_noops (mn : String) (abi : Bool) (imm : Word) : renderText mn abi imm .noops = mn :=
  renderText_of_none rfl mn

/-- R110, R111: the text of the LR form. -/
theorem renderText_lr (mn : String) (abi : Bool) (imm : Word) (rd rs1 : Reg) :
    renderText mn abi imm (.lr rd rs1) = mn ++ " " ++ regname rd abi ++ ",(" ++ regname rs1 abi ++ ")" := by
  rw [renderText_of_some rfl]
  simp only [String.append_assoc]

/-- R110, R111: the text of the AMO form. -/
theorem renderText_amo (mn : String) (abi : Bool) (imm : Word) (rd rs2 rs1 : Reg) :
    renderText mn abi imm (.amo rd rs2 rs1) =
      mn ++ " " ++ regname rd abi ++ "," ++ regname rs2 abi ++ ",(" ++ regname rs1 abi ++ ")" := by
  rw [renderText_of_some rfl]
  simp only [String.append_assoc]

/-- An instruction answers its record; the text is the one thing of it to spell out. -/
theorem answers_of_text {i : Instr} {s : State} {code : BitVec 6} {fmt : BitVec 3} {form : BitVec 4} {imm : Word}
    {text : String} (hr : recordOf i s.inp = recognised s.inp code fmt form imm (recordOf i s.inp).text)
    (ht : (recordOf i s.inp).text = text) : Answers i s (recognised s.inp code fmt form imm text) := by
  rw [Answers, exec_eq, hr, ht]

end Sys2Proof
end

section
/-! The statements on what every instruction answers. -/

namespace Sys2Proof.Proofs

open Sys2Proof.Machine Sys2Proof.Claims

/-- Settles O12: each record is of format R and form RRR with no immediate. -/
theorem registerFormsComplete : Obligations.RegisterFormsComplete := by
  intro e he rd rs1 rs2 s
  fin_cases he <;> exact answers_of_text rfl (renderText_rrr _ _ 0 rd rs1 rs2)

/-- Settles O13: each record is of format I and form RRI. -/
theorem registerImmediateFormsComplete : Obligations.RegisterImmediateFormsComplete := by
  intro e he rd rs1 imm s
  fin_cases he <;> exact answers_of_text rfl (renderText_rri _ _ imm rd rs1)

/-- Settles O14: each record is of format I and form LOAD. -/
theorem loadFormsComplete : Obligations.LoadFormsComplete := by
  intro e he rd rs1 imm s
  fin_cases he <;> exact answers_of_text rfl (renderText_mem (ops := .load rd rs1) rfl _)

/-- Settles O15: each record is of format S and form STORE. -/
theorem storeFormsComplete : Obligations.StoreFormsComplete := by
  intro e he rs2 rs1 imm s
  fin_cases he <;> exact answers_of_text rfl (renderText_mem (ops := .store rs2 rs1) rfl _)

/-- Settles O16: each record is of format B and form BRANCH. -/
theorem branchFormsComplete : Obligations.BranchFormsComplete := by
  intro e he rs1 rs2 imm s
  fin_cases he <;> exact answers_of_text rfl (renderText_branch _ _ imm rs1 rs2)

/-- Settles O17: the records of the JAL, JALR and UI forms. -/
theorem jumpAndUpperFormsComplete : Obligations.JumpAndUpperFormsComplete :=
  ⟨fun rd rs1 imm _ => ⟨answers_of_text rfl (renderText_jal "jal" _ imm rd),
      answers_of_text rfl (renderText_mem (ops := .jalr rd rs1) rfl "jalr")⟩,
    fun rd imm _ => ⟨answers_of_text rfl (renderText_ui "lui" _ imm rd),
      answers_of_text rfl (renderText_ui "auipc" _ imm rd)⟩⟩

/-- Settles O18: no operands are rendered in form NOOPS. -/
theorem systemFormsComplete : Obligations.SystemFormsComplete :=
  fun _ _ s => ⟨answers_of_text rfl (renderText_noops "ecall" s.inp.abi 0),
    answers_of_text rfl (renderText_noops "ebreak" s.inp.abi 1)⟩

/-- Settles O19: the records are of format R with no immediate, of form LR for lr.w and AMO for the others. -/
theorem atomicFormsComplete : Obligations.AtomicFormsComplete := by
  refine ⟨fun rd rs1 _ _ _ => answers_of_text rfl (renderText_lr "lr.w" _ 0 rd rs1), ?_⟩
  intro e he rd rs2 rs1 order s
  fin_cases he <;> exact answers_of_text rfl (renderText_amo _ _ 0 rd rs2 rs1)

/-- Settles O25: each word is decoded by evaluation. -/
theorem sampleWordsDecode : Obligations.SampleWordsDecode := by
  unfold Obligations.SampleWordsDecode
  and_intros <;> decide

end Sys2Proof.Proofs
end

section
/-! SUPPORT. Words under opcodes 1110011 (R73, R99) and 0101111 (R72, R100): the records of the NOOPS, LR and AMO forms. -/

namespace Sys2Proof

open Sys2Proof.Machine Sys2Proof.Claims

/-- The Decode line of ecall or ebreak: the mask leaves the immediate of the match, and the text is the bare mnemonic. -/
theorem wordDrives_noops {v imm : Word} {code : BitVec 6} {mn : String} (i : Reg → Reg → Instr)
    (hd : ∀ a w, w &&& 0xFFF0707F = v → decodeWord a w = some (i (extractFields w).rd (extractFields w).rs1))
    (himm : (v.extractLsb' 20 12).signExtend 32 = imm)
    (hr : ∀ rd rs1 inp, recordOf (i rd rs1) inp = recognisedOut inp code mn .I .noops imm) :
    WordDrives 0xFFF0707F v code 2 9 (fun w => (w.extractLsb' 20 12).signExtend 32) (fun _ _ _ => mn) := by
  intro par inp hw
  have h12 : (inp.insn.extractLsb' 20 12).signExtend 32 = imm := by rw [extractLsb'_of_masked hw (by decide), himm]
  rw [block_of_some (hd _ _ hw), hr, recognisedOut_eq_recognised, renderText_noops, ← h12]
  rfl

/-- R251: funct3 2 and funct5 2 select lr.w. -/
theorem wordDrives_lr : WordDrives 0xF800707F 0x1000202F 48 1 10 (fun _ => 0)
    (fun f abi _ => "lr.w " ++ regname f.rd abi ++ ",(" ++ regname f.rs1 abi ++ ")") := by
  intro par inp hw
  rw [block_of_some (decodeWord_lrW _ hw), recordOf, recordLrW, recognisedOut_eq_recognised, renderText_lr]
  rfl

/-- The record of an AMO word: its keys select `i`, and the record of `i` is of format R and form AMO with no immediate. -/
theorem block_of_amo {par : Params} {inp : Inputs} {v : Word} {code : BitVec 6} {mn : String}
    (i : Reg → Reg → Reg → BitVec 2 → Instr) (ho : (extractFields v).opcode = 0b0101111)
    (h3 : (extractFields v).funct3 = 2)
    (hd : ∀ (w : Word) (f : FieldSet), f.funct3 = 2 → f.funct5 = (extractFields v).funct5 →
      decodeAtomic par.amoorFunct5 w f = some (i f.rd f.rs2 f.rs1 (orderBits w)))
    (hr : ∀ rd rs2 rs1 order inp, recordOf (i rd rs2 rs1 order) inp = recognisedOut inp code mn .R (.amo rd rs2 rs1) 0)
    (hw : inp.insn &&& 0xF800707F = v) :
    block par inp = recognised inp code 1 11 0
      (mn ++ " " ++ regname (extractFields inp.insn).rd inp.abi ++ "," ++ regname (extractFields inp.insn).rs2 inp.abi ++
        ",(" ++ regname (extractFields inp.insn).rs1 inp.abi ++ ")") := by
  have hop : (extractFields inp.insn).opcode = 0b0101111 := (extractLsb'_of_masked hw (by decide)).trans ho
  have hd' := hd inp.insn (extractFields inp.insn) ((extractLsb'_of_masked hw (by decide)).trans h3)
    (extractLsb'_of_masked hw (by decide))
  rw [block_of_some ((decodeWord_of_atomic _ hop).trans hd'), hr, recognisedOut_eq_recognised, renderText_amo]
  rfl

/-! ### The words a decoder reads nothing from (R271) -/

section
variable {a : AmoorFunct5} {w : Word} {f : FieldSet}

/-- The eight values of funct3. -/
theorem funct3_cases (x : BitVec 3) : x = 0 ∨ x = 1 ∨ x = 2 ∨ x = 3 ∨ x = 4 ∨ x = 5 ∨ x = 6 ∨ x = 7 := by
  revert x
  decide

theorem decodeOp_eq_none : decodeOp f = none ↔
    ¬(f.funct7 = 0x00 ∨ f.funct7 = 0x01 ∨ f.funct7 = 0x20 ∧ (f.funct3 = 0 ∨ f.funct3 = 5)) := by
  unfold decodeOp
  split
  case h_19 => rcases funct3_cases f.funct3 with h | h | h | h | h | h | h | h <;> simp_all
  all_goals simp_all

theorem decodeOpImm_eq_none : decodeOpImm w f = none ↔
    f.funct3 = 1 ∧ f.funct7 ≠ 0 ∨ f.funct3 = 5 ∧ f.funct7 ≠ 0 ∧ f.funct7 ≠ 0b0100000 := by
  unfold decodeOpImm
  split
  case h_6 => split <;> simp_all
  all_goals simp_all

theorem decodeLoad_eq_none : decodeLoad w f = none ↔ f.funct3 = 3 ∨ f.funct3 = 6 ∨ f.funct3 = 7 := by
  unfold decodeLoad
  rcases funct3_cases f.funct3 with h | h | h | h | h | h | h | h <;> simp [h]

theorem decodeStore_eq_none : decodeStore w f = none ↔ 3 ≤ f.funct3.toNat := by
  unfold decodeStore
  rcases funct3_cases f.funct3 with h | h | h | h | h | h | h | h <;> simp [h]

theorem decodeBranch_eq_none : decodeBranch w f = none ↔ f.funct3 = 2 ∨ f.funct3 = 3 := by
  unfold decodeBranch
  rcases funct3_cases f.funct3 with h | h | h | h | h | h | h | h <;> simp [h]

theorem decodeSystem_eq_none : decodeSystem w f = none ↔
    f.funct3 ≠ 0 ∨ w.extractLsb' 20 12 ≠ 0 ∧ w.extractLsb' 20 12 ≠ 1 := by
  unfold decodeSystem
  split
  case isFalse h => exact iff_of_true rfl (.inl h)
  case isTrue h => split <;> simp_all

/-- R100: the values of funct5 that select an atomic under either AMOOR_FUNCT5. -/
def atomicFunct5 : List (BitVec 5) := [0x00, 0x01, 0x02, 0x03, 0x04, 0x0C, 0x10, 0x14, 0x18, 0x1C]

theorem decodeAtomic_eq_none : decodeAtomic a w f = none ↔
    f.funct3 ≠ 2 ∨ f.funct5 ≠ a.code ∧ f.funct5 ∉ atomicFunct5 := by
  unfold decodeAtomic
  split
  case isFalse h => exact iff_of_true rfl (.inl h)
  case isTrue h =>
    split <;> simp_all [atomicFunct5]

/-- R271: what is in no row, opcode by opcode. -/
theorem decodeWord_eq_none : decodeWord a w = none ↔
    (extractFields w).opcode ∉ ([0b0110011, 0b0010011, 0b0000011, 0b0100011, 0b1100011, 0b1101111, 0b1100111, 0b0110111,
        0b0010111, 0b1110011, 0b0101111] : List (BitVec 7)) ∨
    ((extractFields w).opcode = 0b0110011 ∧ decodeOp (extractFields w) = none) ∨
    ((extractFields w).opcode = 0b0010011 ∧ decodeOpImm w (extractFields w) = none) ∨
    ((extractFields w).opcode = 0b0000011 ∧ decodeLoad w (extractFields w) = none) ∨
    ((extractFields w).opcode = 0b0100011 ∧ decodeStore w (extractFields w) = none) ∨
    ((extractFields w).opcode = 0b1100011 ∧ decodeBranch w (extractFields w) = none) ∨
    ((extractFields w).opcode = 0b1100111 ∧ (extractFields w).funct3 ≠ 0) ∨
    ((extractFields w).opcode = 0b1110011 ∧ decodeSystem w (extractFields w) = none) ∨
    ((extractFields w).opcode = 0b0101111 ∧ decodeAtomic a w (extractFields w) = none) := by
  unfold decodeWord
  dsimp only
  split
  case h_12 => simp_all
  all_goals
    rename_i ho
    simp [ho]

theorem block_valid_eq_false (par : Params) (inp : Inputs) :
    (block par inp).valid = false ↔ decodeWord par.amoorFunct5 inp.insn = none := by
  rw [block_valid, Option.isSome_eq_false_iff, Option.isNone_iff_eq_none]

end

/-- R100: the rows of opcode 0101111 key funct5, each with the code of its mnemonic. -/
theorem funct5_code_of_row {a : AmoorFunct5} : ∀ r ∈ opcodeRows a, r.value.extractLsb' 0 7 = 0x2F →
    r.mask.extractLsb' 27 5 = BitVec.allOnes 5 ∧ (r.value.extractLsb' 27 5, r.code) ∈ ([(0x00, 51), (0x01, 50), (0x02, 48),
      (0x03, 49), (0x04, 52), (0x0C, 53), (a.code, 54), (0x10, 55), (0x14, 56), (0x18, 57), (0x1C, 58)] :
        List (BitVec 5 × BitVec 6)) := by
  cases a <;> decide

end Sys2Proof
end

section
/-! The statements of 48_system.md and 49_atomic.md, and R271 of 60_exceptions.md. -/

namespace Sys2Proof.Proofs

open Sys2Proof.Machine Sys2Proof.Claims

/-- Settles O10: the immediate and funct3 of each row select its instruction, whose record is the rule's. -/
theorem systemWordsDecode : Obligations.SystemWordsDecode := by
  intro e he
  fin_cases he
  · exact wordDrives_noops .ecall (fun a _ => decodeWord_ecall a) rfl fun _ _ _ => rfl
  · exact wordDrives_noops .ebreak (fun a _ => decodeWord_ebreak a) rfl fun _ _ _ => rfl

/-- Settles O11: the funct5 of each row selects its instruction, that of amoor.w by AMOOR_FUNCT5. -/
theorem atomicWordsDecode : Obligations.AtomicWordsDecode := by
  refine ⟨wordDrives_lr, ?_, ?_⟩
  · simp only [List.forall_mem_cons]
    refine ⟨fun par inp => block_of_amo .scW rfl rfl (fun w f h3 h5 => ?_) fun _ _ _ _ _ => rfl,
      fun par inp => block_of_amo .amoswapW rfl rfl (fun w f h3 h5 => ?_) fun _ _ _ _ _ => rfl,
      fun par inp => block_of_amo .amoaddW rfl rfl (fun w f h3 h5 => ?_) fun _ _ _ _ _ => rfl,
      fun par inp => block_of_amo .amoxorW rfl rfl (fun w f h3 h5 => ?_) fun _ _ _ _ _ => rfl,
      fun par inp => block_of_amo .amoandW rfl rfl (fun w f h3 h5 => ?_) fun _ _ _ _ _ => rfl,
      fun par inp => block_of_amo .amominW rfl rfl (fun w f h3 h5 => ?_) fun _ _ _ _ _ => rfl,
      fun par inp => block_of_amo .amomaxW rfl rfl (fun w f h3 h5 => ?_) fun _ _ _ _ _ => rfl,
      fun par inp => block_of_amo .amominuW rfl rfl (fun w f h3 h5 => ?_) fun _ _ _ _ _ => rfl,
      fun par inp => block_of_amo .amomaxuW rfl rfl (fun w f h3 h5 => ?_) fun _ _ _ _ _ => rfl, List.forall_mem_nil _⟩
    all_goals
      rw [decodeAtomic, h3, h5]
      rfl
  · rintro par inp (⟨ha, hw⟩ | ⟨ha, hw⟩)
    all_goals
      refine block_of_amo (mn := "amoor.w") .amoorW rfl rfl (fun w f h3 h5 => ?_) (fun _ _ _ _ _ => rfl) hw
      rw [decodeAtomic, h3, h5, ha]
      rfl

/-- Settles O23: the dispatcher hands the word to the decoder of its opcode, and each decoder has its own keys. -/
theorem unrecognisedWordsSpelledOut : Obligations.UnrecognisedWordsSpelledOut := by
  intro par inp
  rw [block_valid_eq_false, decodeWord_eq_none, decodeOp_eq_none, decodeOpImm_eq_none, decodeLoad_eq_none,
    decodeStore_eq_none, decodeBranch_eq_none, decodeSystem_eq_none, decodeAtomic_eq_none]
  exact Iff.rfl

/-- Settles O37: the decoder of opcode 0101111 is keyed by funct3 and funct5, and the value AMOOR_FUNCT5 does not
take is no key. -/
theorem atomicsAreKeyedByFunct5 : Obligations.AtomicsAreKeyedByFunct5 := by
  intro par inp ho
  have hv : (block par inp).valid = true ↔ (extractFields inp.insn).funct3 = 2 ∧
      ((extractFields inp.insn).funct5 = par.amoorFunct5.code ∨ (extractFields inp.insn).funct5 ∈ atomicFunct5) := by
    rw [← Bool.not_eq_false, block_valid_eq_false, decodeWord_of_atomic _ ho, decodeAtomic_eq_none]
    tauto
  have hother : ∀ x, (extractFields inp.insn).funct5 = x → x ≠ par.amoorFunct5.code → x ∉ atomicFunct5 →
      (block par inp).valid = false := by
    rintro x rfl hc hm
    rw [← Bool.not_eq_true, hv]
    tauto
  refine ⟨hv, fun h => ?_, fun ha h5 => hother _ h5 (by rw [ha]; decide) (by decide),
    fun ha h5 => hother _ h5 (by rw [ha]; decide) (by decide)⟩
  obtain ⟨r, hr, hw⟩ := (block_valid_iff_row par inp).mp h
  obtain ⟨hm, hmem⟩ := funct5_code_of_row r hr ((opcode_of_row hw hr).symm.trans ho)
  rw [block_mnem_of_row hr hw, funct5_of_row hw hm]
  exact hmem

end Sys2Proof.Proofs
end

section
/-! SUPPORT. The immediate of a recognised record: its range (R81 to R87) and its sign (R80), and the codes of form and format
(R27, R28). -/

namespace Sys2Proof

open Sys2Proof.Machine

/-! ### The range of an immediate, format by format -/

/-- The immediates of a format (R81 to R87). -/
def Fmt.admits : Fmt → Word → Prop
  | .none, _ => False
  | .R, imm => imm = 0
  | .I, imm => fitsI imm = true
  | .S, imm => fitsI imm = true
  | .B, imm => fitsB imm = true
  | .U, imm => fitsU imm = true
  | .J, imm => fitsJ imm = true

/-- R86: a shift amount is among the I immediates. -/
theorem fitsI_of_fitsShift {imm : Word} (h : fitsShift imm = true) : fitsI imm = true := by
  simp only [fitsShift, decide_eq_true_eq] at h
  simp only [fitsI, Bool.and_eq_true, decide_eq_true_eq, BitVec.toInt_eq_toNat_cond]
  split <;> omega

theorem fitsI_range {imm : Word} (h : fitsI imm = true) : -2048 ≤ imm.toInt ∧ imm.toInt ≤ 2047 := by
  simpa [fitsI] using h

theorem fitsB_range {imm : Word} (h : fitsB imm = true) :
    imm.toInt % 2 = 0 ∧ -4096 ≤ imm.toInt ∧ imm.toInt ≤ 4094 := by
  refine ⟨toInt_emod_two (fitsB_even h), ?_⟩
  simp only [fitsB, Bool.and_eq_true, decide_eq_true_eq] at h
  exact h.2

theorem fitsJ_range {imm : Word} (h : fitsJ imm = true) :
    imm.toInt % 2 = 0 ∧ -1048576 ≤ imm.toInt ∧ imm.toInt ≤ 1048574 := by
  refine ⟨toInt_emod_two (fitsJ_even h), ?_⟩
  simp only [fitsJ, Bool.and_eq_true, decide_eq_true_eq] at h
  exact h.2

theorem fitsU_range {imm : Word} (h : fitsU imm = true) : imm.toNat % 2 ^ 12 = 0 := by
  have h' := congrArg BitVec.toNat (beq_iff_eq.mp h)
  simpa [BitVec.extractLsb'_toNat] using h'

/-- The ranges of R81 to R87 by the code of the format. -/
theorem Fmt.admits_range {fmt : Fmt} {imm : Word} (h : fmt.admits imm) :
    (fmtCode fmt = 1 → imm = 0) ∧ (fmtCode fmt = 2 ∨ fmtCode fmt = 3 → -2048 ≤ imm.toInt ∧ imm.toInt ≤ 2047) ∧
    (fmtCode fmt = 4 → imm.toInt % 2 = 0 ∧ -4096 ≤ imm.toInt ∧ imm.toInt ≤ 4094) ∧
    (fmtCode fmt = 5 → imm.toNat % 2 ^ 12 = 0) ∧
    (fmtCode fmt = 6 → imm.toInt % 2 = 0 ∧ -1048576 ≤ imm.toInt ∧ imm.toInt ≤ 1048574) := by
  cases fmt with
  | none => exact h.elim
  | R => simpa [fmtCode] using show imm = 0 from h
  | I | S => simpa [fmtCode] using fitsI_range h
  | B => simpa [fmtCode] using fitsB_range h
  | U => simpa [fmtCode] using fitsU_range h
  | J => simpa [fmtCode] using fitsJ_range h

/-- A well-formed instruction drives an immediate of its format, and a shift a shift amount. -/
theorem recordOf_imm {i : Instr} (h : i.wf = true) (inp : Inputs) : ∃ fmt : Fmt, (recordOf i inp).fmt = fmtCode fmt ∧
    fmt.admits (recordOf i inp).imm ∧
    (25 ≤ (recordOf i inp).mnem.toNat ∧ (recordOf i inp).mnem.toNat ≤ 27 → fitsShift (recordOf i inp).imm = true) := by
  cases i with
  | add | sub | sll | slt | sltu | xor | srl | sra | or | and | mul | mulh | mulhsu | mulhu | div | divu | rem | remu
  | lrW | scW | amoswapW | amoaddW | amoxorW | amoandW | amoorW | amominW | amomaxW | amominuW | amomaxuW =>
    exact ⟨.R, rfl, rfl, fun _ => rfl⟩
  | addi | slti | sltiu | xori | ori | andi | lb | lh | lw | lbu | lhu | jalr =>
    exact ⟨.I, rfl, h, fun hm => absurd hm (of_decide_eq_false rfl)⟩
  | slli | srli | srai => exact ⟨.I, rfl, fitsI_of_fitsShift h, fun _ => h⟩
  | sb | sh | sw => exact ⟨.S, rfl, h, fun hm => absurd hm (of_decide_eq_false rfl)⟩
  | beq | bne | blt | bge | bltu | bgeu => exact ⟨.B, rfl, h, fun hm => absurd hm (of_decide_eq_false rfl)⟩
  | jal => exact ⟨.J, rfl, h, fun hm => absurd hm (of_decide_eq_false rfl)⟩
  | lui | auipc => exact ⟨.U, rfl, h, fun hm => absurd hm (of_decide_eq_false rfl)⟩
  | ecall | ebreak => exact ⟨.I, rfl, rfl, fun hm => absurd hm (of_decide_eq_false rfl)⟩

/-! ### The sign of an immediate (R80) -/

section
variable {imm : Word} (f7 op : BitVec 7) (f3 : BitVec 3) (rd rs1 rs2 : Reg)

theorem msb_encodeI (h : fitsI imm = true) : imm.msb = (encodeI imm rs1 f3 rd op).getLsbD 31 := by
  rw [BitVec.msb_eq_getLsbD_last, fitsI_bits h _ (by decide) (by decide)]
  simp [encodeI]

theorem msb_encodeShift (h : fitsShift imm = true) (h7 : f7.msb = false) :
    imm.msb = (encodeShift f7 imm rs1 f3 rd op).getLsbD 31 := by
  rw [BitVec.msb_eq_getLsbD_last, fitsShift_bits h _ (by decide)]
  simpa [encodeShift, BitVec.msb_eq_getLsbD_last] using h7.symm

theorem msb_encodeS (h : fitsI imm = true) : imm.msb = (encodeS imm rs2 rs1 f3 op).getLsbD 31 := by
  rw [BitVec.msb_eq_getLsbD_last, fitsI_bits h _ (by decide) (by decide)]
  simp [encodeS]

theorem msb_encodeB (h : fitsB imm = true) : imm.msb = (encodeB imm rs2 rs1 f3 op).getLsbD 31 := by
  rw [BitVec.msb_eq_getLsbD_last, fitsB_bits h _ (by decide) (by decide)]
  simp [encodeB]

theorem msb_encodeU : imm.msb = (encodeU imm rd op).getLsbD 31 := by
  rw [BitVec.msb_eq_getLsbD_last]
  simp [encodeU]

theorem msb_encodeJ (h : fitsJ imm = true) : imm.msb = (encodeJ imm rd op).getLsbD 31 := by
  rw [BitVec.msb_eq_getLsbD_last, fitsJ_bits h _ (by decide) (by decide)]
  simp [encodeJ]

end

/-- R80: outside format R the sign of the immediate is bit 31 of the instruction's word. -/
theorem msb_recordOf_imm (a : AmoorFunct5) {i : Instr} (h : i.wf = true) (inp : Inputs) (hf : (recordOf i inp).fmt ≠ 1) :
    (recordOf i inp).imm.msb = (encode a i).getLsbD 31 := by
  cases i with
  | add | sub | sll | slt | sltu | xor | srl | sra | or | and | mul | mulh | mulhsu | mulhu | div | divu | rem | remu
  | lrW | scW | amoswapW | amoaddW | amoxorW | amoandW | amoorW | amominW | amomaxW | amominuW | amomaxuW =>
    exact absurd rfl hf
  | addi | slti | sltiu | xori | ori | andi | lb | lh | lw | lbu | lhu | jalr => exact msb_encodeI _ _ _ _ h
  | slli | srli | srai => exact msb_encodeShift _ _ _ _ _ h rfl
  | sb | sh | sw => exact msb_encodeS _ _ _ _ h
  | beq | bne | blt | bge | bltu | bgeu => exact msb_encodeB _ _ _ _ h
  | jal => exact msb_encodeJ _ _ h
  | lui | auipc => exact msb_encodeU _ _
  | ecall | ebreak => exact msb_encodeI _ _ _ _ rfl

/-! ### Form and format (R27, R28) -/

/-- The forms with the formats they belong to. -/
theorem form_fmt_recordOf (i : Instr) (inp : Inputs) : ((recordOf i inp).form, (recordOf i inp).fmt) ∈
    ([(1, 1), (2, 2), (3, 2), (4, 3), (5, 4), (6, 6), (7, 2), (8, 5), (9, 2), (10, 1), (11, 1)] :
      List (BitVec 4 × BitVec 3)) := by
  cases i with
  | add | sub | sll | slt | sltu | xor | srl | sra | or | and | mul | mulh | mulhsu | mulhu | div | divu | rem | remu =>
    exact List.mem_of_getElem? (i := 0) rfl
  | addi | slti | sltiu | xori | ori | andi | slli | srli | srai => exact List.mem_of_getElem? (i := 1) rfl
  | lb | lh | lw | lbu | lhu => exact List.mem_of_getElem? (i := 2) rfl
  | sb | sh | sw => exact List.mem_of_getElem? (i := 3) rfl
  | beq | bne | blt | bge | bltu | bgeu => exact List.mem_of_getElem? (i := 4) rfl
  | jal => exact List.mem_of_getElem? (i := 5) rfl
  | jalr => exact List.mem_of_getElem? (i := 6) rfl
  | lui | auipc => exact List.mem_of_getElem? (i := 7) rfl
  | ecall | ebreak => exact List.mem_of_getElem? (i := 8) rfl
  | lrW => exact List.mem_of_getElem? (i := 9) rfl
  | scW | amoswapW | amoaddW | amoxorW | amoandW | amoorW | amominW | amomaxW | amominuW | amomaxuW =>
    exact List.mem_of_getElem? (i := 10) rfl

end Sys2Proof
end

section
/-! The statements on the immediates and the codes of form and format. -/

namespace Sys2Proof.Proofs

open Sys2Proof.Machine

/-- Settles O26: the word encodes its instruction, whose immediate is in its range and so a copy of bit 31 upwards. -/
theorem immediateSignIsBit31 : Obligations.ImmediateSignIsBit31 := by
  intro par inp h hf
  obtain ⟨i, hi, hb⟩ := exists_recordOf_of_valid h
  rw [hb] at hf ⊢
  rw [msb_recordOf_imm par.amoorFunct5 (wf_of_decodeWord hi) inp hf, encode_of_decodeWord hi]

/-- Settles O27: the decoded instruction is well formed, and its format fixes the range. -/
theorem drivenImmediatesAreInRange : Obligations.DrivenImmediatesAreInRange := by
  intro par inp h
  obtain ⟨i, hi, hb⟩ := exists_recordOf_of_valid h
  obtain ⟨fmt, hfmt, hadmits, hshift⟩ := recordOf_imm (wf_of_decodeWord hi) inp
  obtain ⟨hR, hIS, hB, hU, hJ⟩ := Fmt.admits_range hadmits
  rw [hb]
  dsimp only
  rw [hfmt]
  refine ⟨hR, hIS, fun hm => ?_, hB, hU, hJ⟩
  have hlt := hshift hm
  rw [fitsShift, decide_eq_true_eq] at hlt
  omega

/-- Settles O32: the unrecognised record has neither code, and a recognised one those of its form. -/
theorem formAndFormatCodesAgree : Obligations.FormAndFormatCodesAgree := by
  intro par inp
  cases h : decodeWord par.amoorFunct5 inp.insn with
  | none =>
    rw [block_of_none h]
    exact .inl ⟨rfl, rfl, rfl⟩
  | some i =>
    rw [block_of_some h]
    exact .inr ⟨recordOf_valid i inp, form_fmt_recordOf i inp⟩

end Sys2Proof.Proofs
end

section
/-! SUPPORT. The spelling of numbers (R12) and of texts (R110 to R114). -/

namespace Sys2Proof.Machine

open Sys2Proof.Claims

/-! ### Hexadecimal and decimal digits (R12) -/

theorem hexDigit_mem (d : BitVec 4) : hexDigit d ∈ "0123456789ABCDEF".toList := by
  revert d
  decide

/-- A hexadecimal digit stands at its value among the digits. -/
theorem idxOf_hexDigit (d : BitVec 4) : "0123456789ABCDEF".toList.idxOf (hexDigit d) = d.toNat := by
  revert d
  decide

theorem length_hex8 (v : Word) : (hex8 v).length = 8 := by
  simp [hex8]

theorem hex8_digits (v : Word) : ∀ c ∈ (hex8 v).toList, c ∈ "0123456789ABCDEF".toList := by
  simp only [hex8, String.toList_ofList, List.forall_mem_cons]
  exact ⟨hexDigit_mem _, hexDigit_mem _, hexDigit_mem _, hexDigit_mem _, hexDigit_mem _, hexDigit_mem _, hexDigit_mem _,
    hexDigit_mem _, List.forall_mem_nil _⟩

theorem digitsValue_hex8 (v : Word) : digitsValue "0123456789ABCDEF" (hex8 v) = v.toNat := by
  have hv := v.isLt
  have hlen : "0123456789ABCDEF".length = 16 := by decide
  simp only [digitsValue, hex8, String.toList_ofList, List.foldl_cons, List.foldl_nil, idxOf_hexDigit, hlen,
    BitVec.extractLsb'_toNat, Nat.shiftRight_eq_div_pow]
  omega

/-- A decimal digit is among the digits, at its value. -/
theorem decimal_of_isDigit {c : Char} (h : c.isDigit = true) :
    c ∈ "0123456789".toList ∧ "0123456789".toList.idxOf c = c.toNat - '0'.toNat := by
  rw [Char.isDigit_iff_toNat] at h
  obtain ⟨hlo, hhi⟩ := h
  rw [← Char.ofNat_toNat c]
  generalize c.toNat = m at hlo hhi
  simp only [Char.reduceToNat] at hlo hhi
  interval_cases m <;> decide

theorem toList_dec (n : Nat) : (dec n).toList = Nat.toDigits 10 n := String.toList_ofList

theorem dec_digits (n : Nat) : ∀ c ∈ (dec n).toList, c ∈ "0123456789".toList := by
  intro c hc
  rw [toList_dec] at hc
  exact (decimal_of_isDigit (Nat.isDigit_of_mem_toDigits (by decide) (by decide) hc)).1

theorem digitsValue_dec (n : Nat) : digitsValue "0123456789" (dec n) = n := by
  rw [digitsValue, toList_dec]
  refine (List.foldl_ext _ _ _ fun m c hc => ?_).trans (Nat.ofDigitChars_ten_toDigits (n := n))
  rw [(decimal_of_isDigit (Nat.isDigit_of_mem_toDigits (by decide) (by decide) hc)).2, Nat.mul_comm]
  rfl

/-- No leading zero: the first digit is that of the number without its last digit, as long as it has two. -/
theorem head?_toDigits_ne_zero {n : Nat} (h : n ≠ 0) : (Nat.toDigits 10 n).head? ≠ some '0' := by
  induction n using Nat.strongRecOn with
  | ind n ih =>
    by_cases hn : n < 10
    · rw [Nat.toDigits_of_lt_base hn]
      simpa using h
    · rw [Nat.toDigits_of_base_le (by decide) (by omega), List.head?_append_of_ne_nil _ Nat.toDigits_ne_nil]
      exact ih (n / 10) (by omega) (by omega)

/-- R12: two patterns with the same hexadecimal spelling are the same. -/
theorem hex8_injective : Function.Injective hex8 := fun v v' h => by
  apply BitVec.eq_of_toNat_eq
  rw [← digitsValue_hex8 v, h, digitsValue_hex8]

/-! ### A text as strings and register names -/

/-- The operands of a layout, the registers apart from the fixed strings (R111 to R114). -/
def operandParts (imm : Word) : Operands → List (String ⊕ Reg)
  | .rrr rd rs1 rs2 => [.inr rd, .inl ",", .inr rs1, .inl ",", .inr rs2]
  | .rri rd rs1     => [.inr rd, .inl ",", .inr rs1, .inl ",", .inl (immText imm)]
  | .load rd rs1    => [.inr rd, .inl ",", .inl "$", .inl (hex8 imm), .inl "(", .inr rs1, .inl ")"]
  | .store rs2 rs1  => [.inr rs2, .inl ",", .inl "$", .inl (hex8 imm), .inl "(", .inr rs1, .inl ")"]
  | .branch rs1 rs2 => [.inr rs1, .inl ",", .inr rs2, .inl ",", .inl (relText imm)]
  | .jal rd         => [.inr rd, .inl ",", .inl (relText imm)]
  | .jalr rd rs1    => [.inr rd, .inl ",", .inl "$", .inl (hex8 imm), .inl "(", .inr rs1, .inl ")"]
  | .ui rd          => [.inr rd, .inl ",", .inl (immText imm)]
  | .noops          => []
  | .lr rd rs1      => [.inr rd, .inl ",(", .inr rs1, .inl ")"]
  | .amo rd rs2 rs1 => [.inr rd, .inl ",", .inr rs2, .inl ",(", .inr rs1, .inl ")"]

/-- R110 in either naming mode: a text is its mnemonic and the parts of its operands, which do not depend on the mode. -/
theorem exists_spell_renderText (mn : String) (imm : Word) (ops : Operands) :
    ∃ parts, ∀ abi, renderText mn abi imm ops = spell abi parts := by
  by_cases h : ops = .noops
  · refine ⟨[.inl mn], fun abi => ?_⟩
    rw [h, renderText_noops]
    simp [spell]
  · refine ⟨.inl mn :: .inl " " :: operandParts imm ops, fun abi => ?_⟩
    have ho : operandText abi imm ops = some (spell abi (operandParts imm ops)) := by
      cases ops <;> simp_all [operandText, operandParts, spell, memText, String.append_assoc]
    rw [renderText_of_some ho]
    rfl

/-! ### Reading a text back -/

/-- A string is the part of a text before the first occurrence of a character it does not contain. -/
theorem takeWhile_append {c : Char} {s t : String} (hs : c ∉ s.toList) (ht : ∀ x ∈ t.toList.head?, x = c) :
    (s ++ t).toList.takeWhile (· ≠ c) = s.toList := by
  have hall : ∀ x ∈ s.toList, decide (x ≠ c) = true := fun x hx => decide_eq_true fun h => hs (h ▸ hx)
  rw [String.toList_append, List.takeWhile_append_of_pos hall]
  cases h : t.toList with
  | nil => simp
  | cons x l => simp [ht x (by simp [h])]

theorem append_inj_of_delimiter {c : Char} {s s' t t' : String} (hs : c ∉ s.toList) (hs' : c ∉ s'.toList)
    (ht : ∀ x ∈ t.toList.head?, x = c) (ht' : ∀ x ∈ t'.toList.head?, x = c) (h : s ++ t = s' ++ t') :
    s = s' ∧ t = t' := by
  have hs : s = s' := by
    rw [← String.toList_inj, ← takeWhile_append hs ht, h, takeWhile_append hs' ht']
  subst hs
  exact ⟨rfl, (String.append_right_inj s).mp h⟩

/-- A register name followed by a text that begins with a comma gives the register and the text back. -/
theorem regname_append_inj {abi : Bool} {r r' : Reg} {d t t' : String} (hd : d.toList.head? = some ',')
    (h : regname r abi ++ (d ++ t) = regname r' abi ++ (d ++ t')) : r = r' ∧ t = t' := by
  have hname : ∀ r abi, ',' ∉ (regname r abi).toList := by decide
  have hhead : ∀ u : String, ∀ x ∈ (d ++ u).toList.head?, x = ',' := fun u x hx => by
    rw [String.toList_append, List.head?_append, hd] at hx
    exact (Option.some.inj hx).symm
  obtain ⟨hr, ht⟩ := append_inj_of_delimiter (hname r abi) (hname r' abi) (hhead t) (hhead t') h
  exact ⟨regname_injective abi hr, (String.append_right_inj d).mp ht⟩

/-- A pattern's eight digits give it and what follows them back. -/
theorem hex8_append_inj {v v' : Word} {t t' : String} (h : hex8 v ++ t = hex8 v' ++ t') : v = v' ∧ t = t' := by
  have hl := congrArg String.toList h
  rw [String.toList_append, String.toList_append] at hl
  have hv := (List.append_inj hl ((length_hex8 v).trans (length_hex8 v').symm)).1
  obtain rfl := hex8_injective (String.toList_inj.mp hv)
  exact ⟨rfl, (String.append_right_inj _).mp h⟩

theorem mnemonic_no_space : ∀ mn ∈ mnemonics, ' ' ∉ mn.toList := by decide

theorem mnemonics_nodup : mnemonics.Nodup := by decide

end Sys2Proof.Machine
end

section
/-! The statements on the spelling of numbers and names. -/

namespace Sys2Proof.Proofs

open Sys2Proof.Machine Sys2Proof.Claims

/-- Settles O39: each digit stands at its value among the digits, and the first decimal digit is that of the number's leading
part. -/
theorem numbersAreSpelledExactly : Obligations.NumbersAreSpelledExactly := by
  refine ⟨fun v => ⟨length_hex8 v, hex8_digits v, digitsValue_hex8 v⟩, by decide,
    fun n => ⟨dec_digits n, digitsValue_dec n, fun hn => ?_⟩⟩
  rw [toList_dec]
  exact head?_toDigits_ne_zero hn

/-- Settles O34: a recognised record renders one layout under either naming mode, an unrecognised one the placeholder. -/
theorem abiFlagChangesOnlyTheNames : Obligations.AbiFlagChangesOnlyTheNames := by
  intro par insn
  cases h : decodeWord par.amoorFunct5 insn with
  | none =>
    have hb : ∀ a p, block par ⟨insn, a, p⟩ = unrecognisedOut par ⟨insn, a, p⟩ := fun a p => block_of_none h
    refine ⟨fun a b p q => by rw [hb, hb]; rfl, [.inl par.unknownToken], fun a p => ?_⟩
    rw [hb]
    simp [unrecognisedOut, spell]
  | some i =>
    obtain ⟨code, mn, fmt, ops, imm, hi, -⟩ := recordOf_shape i
    have hb : ∀ a p, block par ⟨insn, a, p⟩ = recognisedOut ⟨insn, a, p⟩ code mn fmt ops imm := fun a p =>
      (block_of_some h).trans (hi _)
    obtain ⟨parts, hparts⟩ := exists_spell_renderText mn imm ops
    refine ⟨fun a b p q => by rw [hb, hb]; rfl, parts, fun a p => ?_⟩
    rw [hb]
    exact hparts a

end Sys2Proof.Proofs
end

section
/-! SUPPORT. A recognised word from its text (R110 to R114): under each row the text gives back the operands, and these with
the row's keys the word, up to the bits that are not rendered (R105). -/

namespace Sys2Proof

open Sys2Proof.Machine Sys2Proof.Claims

/-- The bits of a word that a record of the form renders or its row keys. -/
def bitsOfForm (form : BitVec 4) : Word :=
  if form = 9 then 0xFFF0707F else if form = 10 then 0xF80FFFFF else if form = 11 then 0xF9FFFFFF else 0xFFFFFFFF

theorem renderedBits_eq (o : Out) : renderedBits o = bitsOfForm o.form := rfl

/-- Under the row with the mask and match, two words with the same text have the same immediate and the same rendered bits. -/
def TextDetermines (par : Params) (mask value : Word) : Prop :=
  ∀ inp inp' : Inputs, inp.abi = inp'.abi → inp.insn &&& mask = value → inp'.insn &&& mask = value →
    (block par inp).text = (block par inp').text →
      (block par inp).imm = (block par inp').imm ∧
        inp.insn &&& renderedBits (block par inp) = inp'.insn &&& renderedBits (block par inp)

/-- It is enough that the text of the row's Decode line determines them. -/
theorem textDetermines_of_drives {par : Params} {mask value : Word} {code : BitVec 6} {fmt : BitVec 3} {form : BitVec 4}
    {imm : Word → Word} {text : FieldSet → Bool → Word → String}
    (h : ∀ inp : Inputs, inp.insn &&& mask = value →
      block par inp = recognised inp code fmt form (imm inp.insn) (text (extractFields inp.insn) inp.abi (imm inp.insn)))
    (hinj : ∀ (w w' : Word) (abi : Bool), w &&& mask = w' &&& mask →
      text (extractFields w) abi (imm w) = text (extractFields w') abi (imm w') →
      imm w = imm w' ∧ w &&& bitsOfForm form = w' &&& bitsOfForm form) : TextDetermines par mask value := by
  intro inp inp' habi hw hw' ht
  rw [h inp hw, h inp' hw', ← habi] at ht
  rw [h inp hw, h inp' hw', renderedBits_eq]
  exact hinj inp.insn inp'.insn inp.abi (hw.trans hw'.symm) ht

theorem textDetermines_of_wordDrives {par : Params} {mask value : Word} {code : BitVec 6} {fmt : BitVec 3}
    {form : BitVec 4} {imm : Word → Word} {text : FieldSet → Bool → Word → String}
    (h : WordDrives mask value code fmt form imm text)
    (hinj : ∀ (w w' : Word) (abi : Bool), w &&& mask = w' &&& mask →
      text (extractFields w) abi (imm w) = text (extractFields w') abi (imm w') →
      imm w = imm w' ∧ w &&& bitsOfForm form = w' &&& bitsOfForm form) : TextDetermines par mask value :=
  textDetermines_of_drives (h par) hinj

/-! ### Form by form

`p` is the text in front of the operands, the mnemonic and a space. -/

section
variable {w w' : Word} {abi : Bool} {p : String}

theorem eq_of_text_rrr (hm : w &&& 0xFE00707F = w' &&& 0xFE00707F)
    (h : p ++ regname (extractFields w).rd abi ++ "," ++ regname (extractFields w).rs1 abi ++ "," ++
        regname (extractFields w).rs2 abi =
      p ++ regname (extractFields w').rd abi ++ "," ++ regname (extractFields w').rs1 abi ++ "," ++
        regname (extractFields w').rs2 abi) : w = w' := by
  simp only [String.append_assoc, String.append_right_inj] at h
  obtain ⟨hrd, h⟩ := regname_append_inj rfl h
  obtain ⟨hrs1, h⟩ := regname_append_inj rfl h
  have he := encodeR_of_fields (w := w) (extractLsb'_eq_of_masked hm (by decide)) (extractLsb'_eq_of_masked hm (by decide))
    (extractLsb'_eq_of_masked hm (by decide))
  rw [hrd, hrs1, regname_injective abi h] at he
  exact he.symm.trans (encodeR_of_fields rfl rfl rfl)

/-- A word of format I is its opcode, funct3, registers and immediate. -/
theorem eq_of_immI (hm : w &&& 0x0000707F = w' &&& 0x0000707F) (hrd : (extractFields w).rd = (extractFields w').rd)
    (hrs1 : (extractFields w).rs1 = (extractFields w').rs1) (himm : immI w = immI w') : w = w' := by
  have he := encodeI_of_fields (extractLsb'_immI w) (extractLsb'_eq_of_masked hm (by decide))
    (extractLsb'_eq_of_masked hm (by decide))
  rw [hrd, hrs1, himm] at he
  exact he.symm.trans (encodeI_of_fields (extractLsb'_immI w') rfl rfl)

theorem eq_of_text_rri (hm : w &&& 0x0000707F = w' &&& 0x0000707F)
    (h : p ++ regname (extractFields w).rd abi ++ "," ++ regname (extractFields w).rs1 abi ++ ",#$" ++ hex8 (immI w) =
      p ++ regname (extractFields w').rd abi ++ "," ++ regname (extractFields w').rs1 abi ++ ",#$" ++ hex8 (immI w')) :
    immI w = immI w' ∧ w = w' := by
  simp only [String.append_assoc, String.append_right_inj] at h
  obtain ⟨hrd, h⟩ := regname_append_inj rfl h
  obtain ⟨hrs1, h⟩ := regname_append_inj rfl h
  exact ⟨hex8_injective h, eq_of_immI hm hrd hrs1 (hex8_injective h)⟩

theorem eq_of_text_shift (hm : w &&& 0xFE00707F = w' &&& 0xFE00707F)
    (h : p ++ regname (extractFields w).rd abi ++ "," ++ regname (extractFields w).rs1 abi ++ ",#$" ++ hex8 (immSH w) =
      p ++ regname (extractFields w').rd abi ++ "," ++ regname (extractFields w').rs1 abi ++ ",#$" ++ hex8 (immSH w')) :
    immSH w = immSH w' ∧ w = w' := by
  simp only [String.append_assoc, String.append_right_inj] at h
  obtain ⟨hrd, h⟩ := regname_append_inj rfl h
  obtain ⟨hrs1, h⟩ := regname_append_inj rfl h
  have himm := hex8_injective h
  have he := encodeShift_of_fields (w := w) (extractLsb'_eq_of_masked hm (by decide))
    (extractLsb'_eq_of_masked hm (by decide)) (extractLsb'_eq_of_masked hm (by decide))
  rw [hrd, hrs1, himm] at he
  exact ⟨himm, he.symm.trans (encodeShift_of_fields rfl rfl rfl)⟩

/-- The operands of the LOAD, STORE and JALR forms. -/
theorem mem_text_inj {r r' base base' : Reg} {v v' : Word}
    (h : p ++ regname r abi ++ ",$" ++ hex8 v ++ "(" ++ regname base abi ++ ")" =
      p ++ regname r' abi ++ ",$" ++ hex8 v' ++ "(" ++ regname base' abi ++ ")") : r = r' ∧ v = v' ∧ base = base' := by
  simp only [String.append_assoc, String.append_right_inj] at h
  obtain ⟨hr, h⟩ := regname_append_inj rfl h
  obtain ⟨hv, h⟩ := hex8_append_inj h
  exact ⟨hr, hv, regname_injective abi ((String.append_left_inj _).mp ((String.append_right_inj _).mp h))⟩

theorem eq_of_text_load (hm : w &&& 0x0000707F = w' &&& 0x0000707F)
    (h : p ++ regname (extractFields w).rd abi ++ ",$" ++ hex8 (immI w) ++ "(" ++ regname (extractFields w).rs1 abi ++ ")" =
      p ++ regname (extractFields w').rd abi ++ ",$" ++ hex8 (immI w') ++ "(" ++ regname (extractFields w').rs1 abi ++
        ")") : immI w = immI w' ∧ w = w' := by
  obtain ⟨hrd, himm, hrs1⟩ := mem_text_inj h
  exact ⟨himm, eq_of_immI hm hrd hrs1 himm⟩

theorem eq_of_text_store (hm : w &&& 0x0000707F = w' &&& 0x0000707F)
    (h : p ++ regname (extractFields w).rs2 abi ++ ",$" ++ hex8 (immS w) ++ "(" ++ regname (extractFields w).rs1 abi ++ ")" =
      p ++ regname (extractFields w').rs2 abi ++ ",$" ++ hex8 (immS w') ++ "(" ++ regname (extractFields w').rs1 abi ++
        ")") : immS w = immS w' ∧ w = w' := by
  obtain ⟨hrs2, himm, hrs1⟩ := mem_text_inj h
  have he := encodeS_of_fields (w := w) (extractLsb'_eq_of_masked hm (by decide)) (extractLsb'_eq_of_masked hm (by decide))
  rw [hrs2, hrs1, himm] at he
  exact ⟨himm, he.symm.trans (encodeS_of_fields rfl rfl)⟩

theorem eq_of_text_branch (hm : w &&& 0x0000707F = w' &&& 0x0000707F)
    (h : p ++ regname (extractFields w).rs1 abi ++ "," ++ regname (extractFields w).rs2 abi ++ ",*+$" ++ hex8 (immB w) =
      p ++ regname (extractFields w').rs1 abi ++ "," ++ regname (extractFields w').rs2 abi ++ ",*+$" ++ hex8 (immB w')) :
    immB w = immB w' ∧ w = w' := by
  simp only [String.append_assoc, String.append_right_inj] at h
  obtain ⟨hrs1, h⟩ := regname_append_inj rfl h
  obtain ⟨hrs2, h⟩ := regname_append_inj rfl h
  have himm := hex8_injective h
  have he := encodeB_of_fields (w := w) (extractLsb'_eq_of_masked hm (by decide)) (extractLsb'_eq_of_masked hm (by decide))
  rw [hrs1, hrs2, himm] at he
  exact ⟨himm, he.symm.trans (encodeB_of_fields rfl rfl)⟩

theorem eq_of_text_jal (hm : w &&& 0x0000007F = w' &&& 0x0000007F)
    (h : p ++ regname (extractFields w).rd abi ++ ",*+$" ++ hex8 (immJ w) =
      p ++ regname (extractFields w').rd abi ++ ",*+$" ++ hex8 (immJ w')) : immJ w = immJ w' ∧ w = w' := by
  simp only [String.append_assoc, String.append_right_inj] at h
  obtain ⟨hrd, h⟩ := regname_append_inj rfl h
  have himm := hex8_injective h
  have he := encodeJ_of_fields (w := w) (extractLsb'_eq_of_masked hm (by decide))
  rw [hrd, himm] at he
  exact ⟨himm, he.symm.trans (encodeJ_of_fields rfl)⟩

theorem eq_of_text_ui (hm : w &&& 0x0000007F = w' &&& 0x0000007F)
    (h : p ++ regname (extractFields w).rd abi ++ ",#$" ++ hex8 (immU w) =
      p ++ regname (extractFields w').rd abi ++ ",#$" ++ hex8 (immU w')) : immU w = immU w' ∧ w = w' := by
  simp only [String.append_assoc, String.append_right_inj] at h
  obtain ⟨hrd, h⟩ := regname_append_inj rfl h
  have himm := hex8_injective h
  have he := encodeU_of_fields (w := w) (extractLsb'_eq_of_masked hm (by decide))
  rw [hrd, himm] at he
  exact ⟨himm, he.symm.trans (encodeU_of_fields rfl)⟩

/-- The ordering bits are the one field of an atomic that form AMO neither keys nor renders. -/
theorem masked_of_encodeA (w : Word) : w &&& 0xF9FFFFFF = encodeA (extractFields w).funct5 0 (extractFields w).rs2
    (extractFields w).rs1 (extractFields w).funct3 (extractFields w).rd (extractFields w).opcode := by
  apply BitVec.eq_of_getLsbD_eq
  intro j hj
  interval_cases j <;> simp [encodeA, extractFields]

/-- Form LR does not render rs2 either. -/
theorem masked_of_encodeA_lr (w : Word) : w &&& 0xF80FFFFF = encodeA (extractFields w).funct5 0 0
    (extractFields w).rs1 (extractFields w).funct3 (extractFields w).rd (extractFields w).opcode := by
  apply BitVec.eq_of_getLsbD_eq
  intro j hj
  interval_cases j <;> simp [encodeA, extractFields]

theorem masked_eq_of_text_amo (hm : w &&& 0xF800707F = w' &&& 0xF800707F)
    (h : p ++ regname (extractFields w).rd abi ++ "," ++ regname (extractFields w).rs2 abi ++ ",(" ++
        regname (extractFields w).rs1 abi ++ ")" =
      p ++ regname (extractFields w').rd abi ++ "," ++ regname (extractFields w').rs2 abi ++ ",(" ++
        regname (extractFields w').rs1 abi ++ ")") : w &&& 0xF9FFFFFF = w' &&& 0xF9FFFFFF := by
  simp only [String.append_assoc, String.append_right_inj] at h
  obtain ⟨hrd, h⟩ := regname_append_inj rfl h
  obtain ⟨hrs2, h⟩ := regname_append_inj rfl h
  have hrs1 := regname_injective abi ((String.append_left_inj _).mp h)
  have h5 : (extractFields w).funct5 = (extractFields w').funct5 := extractLsb'_eq_of_masked hm (by decide)
  have h3 : (extractFields w).funct3 = (extractFields w').funct3 := extractLsb'_eq_of_masked hm (by decide)
  have ho : (extractFields w).opcode = (extractFields w').opcode := extractLsb'_eq_of_masked hm (by decide)
  rw [masked_of_encodeA, masked_of_encodeA w', hrd, hrs2, hrs1, h5, h3, ho]

theorem masked_eq_of_text_lr (hm : w &&& 0xF800707F = w' &&& 0xF800707F)
    (h : p ++ regname (extractFields w).rd abi ++ ",(" ++ regname (extractFields w).rs1 abi ++ ")" =
      p ++ regname (extractFields w').rd abi ++ ",(" ++ regname (extractFields w').rs1 abi ++ ")") :
    w &&& 0xF80FFFFF = w' &&& 0xF80FFFFF := by
  simp only [String.append_assoc, String.append_right_inj] at h
  obtain ⟨hrd, h⟩ := regname_append_inj rfl h
  have hrs1 := regname_injective abi ((String.append_left_inj _).mp h)
  have h5 : (extractFields w).funct5 = (extractFields w').funct5 := extractLsb'_eq_of_masked hm (by decide)
  have h3 : (extractFields w).funct3 = (extractFields w').funct3 := extractLsb'_eq_of_masked hm (by decide)
  have ho : (extractFields w).opcode = (extractFields w').opcode := extractLsb'_eq_of_masked hm (by decide)
  rw [masked_of_encodeA_lr, masked_of_encodeA_lr w', hrd, hrs1, h5, h3, ho]

end

/-! ### Row by row -/

section
variable {par : Params} {r : OpcodeRow}

/-- A family whose Decode lines share the mask, the form and the immediate. -/
theorem textDetermines_of_family {rows : List (Word × BitVec 6 × String)} {mask : Word} {fmt : BitVec 3} {form : BitVec 4}
    {imm : Word → Word} {text : Word × BitVec 6 × String → FieldSet → Bool → Word → String}
    (h : ∀ e ∈ rows, WordDrives mask e.1 e.2.1 fmt form imm (text e))
    (hinj : ∀ e (w w' : Word) abi, w &&& mask = w' &&& mask →
      text e (extractFields w) abi (imm w) = text e (extractFields w') abi (imm w') →
      imm w = imm w' ∧ w &&& bitsOfForm form = w' &&& bitsOfForm form)
    (hr : r ∈ rows.map fun e => ⟨e.2.1, mask, e.1⟩) : TextDetermines par r.mask r.value := by
  obtain ⟨e, he, rfl⟩ := List.mem_map.mp hr
  exact textDetermines_of_wordDrives (h e he) (hinj e)

theorem textDetermines_of_rtypeRow (hr : r ∈ rtypeRows) : TextDetermines par r.mask r.value :=
  textDetermines_of_family Proofs.registerRegisterWordsDecode
    (fun _ _ _ _ hm ht => ⟨rfl, congrArg (· &&& _) (eq_of_text_rrr hm ht)⟩) hr

theorem textDetermines_of_mextRow (hr : r ∈ mextRows) : TextDetermines par r.mask r.value :=
  textDetermines_of_family Proofs.multiplyDivideWordsDecode
    (fun _ _ _ _ hm ht => ⟨rfl, congrArg (· &&& _) (eq_of_text_rrr hm ht)⟩) hr

theorem textDetermines_of_itypeRow (hr : r ∈ itypeRows) : TextDetermines par r.mask r.value := by
  rcases List.mem_append.mp (show r ∈ itypeRows.take 6 ++ itypeRows.drop 6 from hr) with hr | hr
  · exact textDetermines_of_family Proofs.registerImmediateWordsDecode
      (fun _ _ _ _ hm ht => (eq_of_text_rri hm ht).imp_right (congrArg (· &&& _))) hr
  · exact textDetermines_of_family Proofs.immediateShiftWordsDecode
      (fun _ _ _ _ hm ht => (eq_of_text_shift hm ht).imp_right (congrArg (· &&& _))) hr

theorem textDetermines_of_loadRow (hr : r ∈ loadRows) : TextDetermines par r.mask r.value :=
  textDetermines_of_family Proofs.loadWordsDecode
    (fun _ _ _ _ hm ht => (eq_of_text_load hm ht).imp_right (congrArg (· &&& _))) hr

theorem textDetermines_of_storeRow (hr : r ∈ storeRows) : TextDetermines par r.mask r.value :=
  textDetermines_of_family Proofs.storeWordsDecode
    (fun _ _ _ _ hm ht => (eq_of_text_store hm ht).imp_right (congrArg (· &&& _))) hr

theorem textDetermines_of_branchRow (hr : r ∈ branchRows) : TextDetermines par r.mask r.value :=
  textDetermines_of_family Proofs.branchWordsDecode
    (fun _ _ _ _ hm ht => (eq_of_text_branch hm ht).imp_right (congrArg (· &&& _))) hr

theorem textDetermines_of_jumpRow (hr : r ∈ jumpRows) : TextDetermines par r.mask r.value := by
  obtain ⟨hjal, hjalr⟩ := Proofs.jumpWordsDecode
  fin_cases hr
  · exact textDetermines_of_wordDrives hjal fun _ _ _ hm ht =>
      (eq_of_text_jal hm ht).imp_right (congrArg (· &&& _))
  · exact textDetermines_of_wordDrives hjalr fun _ _ _ hm ht =>
      (eq_of_text_load hm ht).imp_right (congrArg (· &&& _))

theorem textDetermines_of_upperRow (hr : r ∈ upperRows) : TextDetermines par r.mask r.value :=
  textDetermines_of_family Proofs.upperImmediateWordsDecode
    (fun _ _ _ _ hm ht => (eq_of_text_ui hm ht).imp_right (congrArg (· &&& _))) hr

/-- The row of ecall or ebreak keys every rendered bit, the immediate among them. -/
theorem textDetermines_of_systemRow (hr : r ∈ systemRows) : TextDetermines par r.mask r.value :=
  textDetermines_of_family Proofs.systemWordsDecode
    (fun _ _ _ _ hm _ => ⟨congrArg (BitVec.signExtend 32) (extractLsb'_eq_of_masked hm (by decide)), hm⟩) hr

theorem textDetermines_of_amoorRow :
    TextDetermines par 0xF800707F par.amoorFunct5.rowMatch := by
  obtain ⟨-, -, hamoor⟩ := Proofs.atomicWordsDecode
  refine textDetermines_of_drives (imm := fun _ => 0) (text := fun f abi _ =>
    "amoor.w " ++ regname f.rd abi ++ "," ++ regname f.rs2 abi ++ ",(" ++ regname f.rs1 abi ++ ")")
    (fun inp hw => hamoor par inp ?_) fun _ _ _ hm ht => ⟨rfl, masked_eq_of_text_amo hm ht⟩
  cases ha : par.amoorFunct5 <;> rw [ha] at hw
  · exact .inl ⟨rfl, hw⟩
  · exact .inr ⟨rfl, hw⟩

theorem textDetermines_of_atomicRow (hr : r ∈ atomicRows par.amoorFunct5) : TextDetermines par r.mask r.value := by
  obtain ⟨hlr, hamo, -⟩ := Proofs.atomicWordsDecode
  have hamoRow : r ∈ ((atomicRows par.amoorFunct5).drop 1).take 5 ++ (atomicRows par.amoorFunct5).drop 7 →
      TextDetermines par r.mask r.value := fun hr =>
    textDetermines_of_family hamo (fun _ _ _ _ hm ht => ⟨rfl, masked_eq_of_text_amo hm ht⟩) hr
  have hsplit : r ∈ ⟨48, 0xF800707F, 0x1000202F⟩ :: (((atomicRows par.amoorFunct5).drop 1).take 5 ++
      ⟨54, 0xF800707F, par.amoorFunct5.rowMatch⟩ :: (atomicRows par.amoorFunct5).drop 7) := hr
  rw [List.mem_cons, List.mem_append, List.mem_cons] at hsplit
  obtain rfl | hr | rfl | hr := hsplit
  · exact textDetermines_of_wordDrives hlr fun _ _ _ hm ht => ⟨rfl, masked_eq_of_text_lr hm ht⟩
  · exact hamoRow (List.mem_append_left _ hr)
  · exact textDetermines_of_amoorRow
  · exact hamoRow (List.mem_append_right _ hr)

theorem textDetermines_of_row (hr : r ∈ opcodeRows par.amoorFunct5) : TextDetermines par r.mask r.value := by
  rw [opcodeRows, List.mem_append, List.mem_append, List.mem_append, List.mem_append, List.mem_append, List.mem_append,
    List.mem_append, List.mem_append, List.mem_append] at hr
  rcases hr with ((((((((hr | hr) | hr) | hr) | hr) | hr) | hr) | hr) | hr) | hr
  · exact textDetermines_of_rtypeRow hr
  · exact textDetermines_of_mextRow hr
  · exact textDetermines_of_itypeRow hr
  · exact textDetermines_of_loadRow hr
  · exact textDetermines_of_storeRow hr
  · exact textDetermines_of_branchRow hr
  · exact textDetermines_of_jumpRow hr
  · exact textDetermines_of_upperRow hr
  · exact textDetermines_of_systemRow hr
  · exact textDetermines_of_atomicRow hr

end

/-! ### The mnemonic of a text -/

theorem codes_nodup (a : AmoorFunct5) : ((opcodeRows a).map OpcodeRow.code).Nodup := by
  cases a <;> decide

/-- R110: what follows the mnemonic is nothing or begins with a space. -/
theorem eq_space_of_mem_head? {form : BitVec 4} {t : String} (h0 : t = "" ↔ form = 9)
    (hops : form ≠ 9 → ∃ ops, t = " " ++ ops) : ∀ x ∈ t.toList.head?, x = ' ' := by
  intro x hx
  by_cases hf : form = 9
  · rw [h0.mpr hf] at hx
    cases hx
  · obtain ⟨ops, rfl⟩ := hops hf
    rw [String.toList_append] at hx
    exact (Option.some.inj hx).symm

/-- The mnemonic is the text up to the first space, and its place in the table of R26 the code. -/
theorem block_mnem_of_text {par : Params} {inp inp' : Inputs} (h : (block par inp).valid = true)
    (h' : (block par inp').valid = true) (ht : (block par inp).text = (block par inp').text) :
    (block par inp).mnem = (block par inp').mnem := by
  obtain ⟨hlo, -, mn, t, hmn, htext, h0, hops⟩ := (Proofs.mnemonicCodesAndSpellings par inp).2 h
  obtain ⟨hlo', -, mn', t', hmn', htext', h0', hops'⟩ := (Proofs.mnemonicCodesAndSpellings par inp').2 h'
  rw [htext, htext'] at ht
  obtain ⟨rfl, -⟩ := append_inj_of_delimiter (mnemonic_no_space mn (List.mem_of_getElem? hmn))
    (mnemonic_no_space mn' (List.mem_of_getElem? hmn')) (eq_space_of_mem_head? h0 hops)
    (eq_space_of_mem_head? h0' hops') ht
  obtain ⟨hlen, -⟩ := List.getElem?_eq_some_iff.mp hmn
  have hcode := (List.getElem?_inj hlen mnemonics_nodup).mp (hmn.trans hmn'.symm)
  exact BitVec.eq_of_toNat_eq (by omega)

end Sys2Proof
end

section
/-! The statement on reading a word back from its text. -/

namespace Sys2Proof.Proofs

open Sys2Proof.Machine

/-- Settles O40: the text up to its first space is the mnemonic, whose code has one row, and under a row the operands are read
back from the text. -/
theorem textDeterminesTheWord : Obligations.TextDeterminesTheWord := by
  intro par inp inp' habi h h' ht
  have hmnem := block_mnem_of_text h h' ht
  obtain ⟨r, hr, hw⟩ := (block_valid_iff_row par inp).mp h
  obtain ⟨r', hr', hw'⟩ := (block_valid_iff_row par inp').mp h'
  have hcode : r.code = r'.code := by rw [← block_mnem_of_row hr hw, hmnem, block_mnem_of_row hr' hw']
  obtain rfl := List.inj_on_of_nodup_map (codes_nodup par.amoorFunct5) hr hr' hcode
  exact ⟨hmnem, textDetermines_of_row hr inp inp' habi hw hw' ht⟩

end Sys2Proof.Proofs
end
